-- ==== Sys2Proof/Word.lean ====
section
/-! DEFINITION. The words of the bridge: bytes, backplane values and addresses, host addresses, timebase values, and
the numbers of channels, lines, counters, regions and vectors. -/

namespace Sys2Proof

/-- One byte of host memory. -/
abbrev Byte := BitVec 8

/-- A backplane value: a word, or a byte zero-extended (02, section 2.2). -/
abbrev Value := BitVec 16

/-- A backplane byte address (R76, R79: 0..0xFFFFFF). -/
abbrev BusAddr := BitVec 24

/-- An address of host memory (R204: ADMIN_BASE holds a 64-bit host address). -/
abbrev HostAddr := BitVec 64

/-- A timebase value in microseconds (R211). -/
abbrev Time := BitVec 32

/-- The detail field of a completion, admin completion or event record (R213). -/
abbrev Detail := BitVec 32

/-- A 32-byte record of the host: a script request or an admin command (R212). Byte k is bits 8k to 8k+7. -/
abbrev Record32 := BitVec 256

/-- A 16-byte step record (R34, R212). Byte k is bits 8k to 8k+7. -/
abbrev StepBits := BitVec 128

/-- Channels 0..3 (R1). -/
abbrev ChanId := Fin 4

/-- Attention lines 0..7 (R147). -/
abbrev LineId := Fin 8

/-- Sync counters 0..7 (R156). -/
abbrev CounterId := Fin 8

/-- Region Table indices 0..15 (R89). -/
abbrev RegionId := Fin 16

/-- Interrupt vectors 0..5 (R198). -/
abbrev VectorId := Fin 6

end Sys2Proof
end

