-- ==== Sys2Proof/Config.lean ====
section
/-! DEFINITION. The figures of the part (00_scope, Numbers) and the one value the spec leaves open. -/

namespace Sys2Proof.Config

/-- The number of host addresses: the highest host address is one less. DEDUCED, log entry 7: the spec names a
"highest host address" (R35, R179, R195) and 64-bit host addresses (R204). -/
def hostAddresses : Nat := 2 ^ 64

/-- The highest backplane address (R90, R95). -/
def topBusAddr : Nat := 0xFFFFFF

/-- The step window holds up to four entries (R9). -/
def windowSize : Nat := 4

/-- The link stack holds up to six positions (R12). -/
def linkDepth : Nat := 6

/-- The Shadow Store holds up to 64 entries (R134). -/
def shadowSize : Nat := 64

/-- Each admin ring has 32 slots (R176). -/
def adminSlots : Nat := 32

/-- A pending count stays within 0..15 (R149). -/
def attnMax : Nat := 15

/-- A sync counter stays within 0..65535 (R156). -/
def syncMax : Nat := 65535

/-- Occurrences of an event record hold at 65535 (R189). -/
def occurrencesMax : Nat := 65535

/-- Steps executed and the ordinal counter hold at 4,294,967,295 (R6). -/
def counterMax : Nat := 4294967295

/-- The highest value of the 24-bit fields of a completion record (R213). -/
def field24Max : Nat := 16777215

/-- The highest grant wait, lease, guest hold and change limit (R18, R105, R122, R127). -/
def limitMax : Nat := 16777215

/-- The mark WRITE_NOT_PERFORMED of a LOCK_BROKEN completion (R64, R213). -/
def writeNotPerformed : Detail := 0x80000000

/-- FREE VALUE, log entry 8. A host address formed as the exact sum given, where that sum is past the highest host
address: the spec gives no value for it (R10 and R56 add 16 to a list address, R164 adds a slot's offset to a ring's
base, none of them says what lies past the top). Nothing in Lean can evaluate it. -/
opaque hostAddressPastTop : Nat → HostAddr

end Sys2Proof.Config
end

