-- ==== Sys2Proof/Syntax.lean ====
section
/-! DEFINITION. The commands of the bridge: one constructor for each row of spec/opcode_table.json, in the table's
order. A command is one happening (00_scope, Conventions): an admin command taken, a register write, the end of a
host transfer, a step of a script, the end of an attempt, a timer running out, a change of a backplane line. -/

namespace Sys2Proof

/-- A write of ADMIN_BASE: one 64-bit write, or one of its two 32-bit halves (R204, R215). -/
inductive BaseWrite where
  | full (v : BitVec 64)
  | low (v : BitVec 32)
  | high (v : BitVec 32)
  deriving DecidableEq, Repr

/-- The commands. Every record carried is the record as the bridge reads it from host memory. -/
inductive Instr where
  /-- CONFIGURE_CHANNEL (R18). -/
  | configureChannel (rec : Record32)
  /-- START_CHANNEL (R19). -/
  | startChannel (rec : Record32)
  /-- PAUSE_CHANNEL (R20). -/
  | pauseChannel (rec : Record32)
  /-- ABORT_CHANNEL (R25). -/
  | abortChannel (rec : Record32)
  /-- ABORT_CHANNEL_FLUSH (R27). -/
  | abortChannelFlush (rec : Record32)
  /-- RELEASE_CHANNEL (R29). -/
  | releaseChannel (rec : Record32)
  /-- QUERY_CHANNEL (R30). -/
  | queryChannel (rec : Record32)
  /-- SET_REGION (R95 to R98). -/
  | setRegion (rec : Record32)
  /-- CLEAR_REGION (R99). -/
  | clearRegion (rec : Record32)
  /-- QUERY_REGIONS (R101). -/
  | queryRegions (rec : Record32)
  /-- SET_PORT_MODE (R122 to R126). -/
  | setPortMode (rec : Record32)
  /-- BACKPLANE_RESET (R127, R128). -/
  | backplaneReset (rec : Record32)
  /-- SEED_SHADOW (R142, R143). -/
  | seedShadow (rec : Record32)
  /-- PURGE_SHADOW (R144). -/
  | purgeShadow (rec : Record32)
  /-- QUERY_SHADOW (R145). -/
  | queryShadow (rec : Record32)
  /-- SET_ATTENTION (R153, R154). -/
  | setAttention (rec : Record32)
  /-- SET_SYNC (R162). -/
  | setSync (rec : Record32)
  /-- CONFIGURE_EVENTS (R195, R196). -/
  | configureEvents (rec : Record32)
  /-- UNKNOWN_COMMAND (R179: a command code that names no command). -/
  | unknownCommand (rec : Record32)
  /-- COMMAND_READ_START (R178). -/
  | commandReadStart
  /-- COMMAND_READ_FAULT (R178, R185). -/
  | commandReadFault
  /-- ADMIN_COMPLETION_WRITE_END (R181, R185; ok is false for a host fault). -/
  | adminCompletionWriteEnd (ok : Bool)
  /-- SNAPSHOT_WRITE_END (R182; ok is false for a host fault). -/
  | snapshotWriteEnd (ok : Bool)
  /-- ENABLE (R202: a write of CONTROL with RESET 0). -/
  | enable (value : Bool)
  /-- BRIDGE_RESET (R202, R206: a write of CONTROL with RESET 1; the ENABLE value is not taken). -/
  | bridgeReset (enable : Bool)
  /-- LINK_HOT_RESET (R206, R207, R209). -/
  | linkHotReset
  /-- BRIDGE_RESET_COMPLETE (R208). -/
  | bridgeResetComplete
  /-- POWER_ON (R210). -/
  | powerOn
  /-- POWER_ON_INITIALISATION_END (R210). -/
  | powerOnInitialisationEnd
  /-- ADMIN_BASE (R176, R204). -/
  | adminBase (w : BaseWrite)
  /-- INTR (R199: bits 0 to 5 are the mask bits). -/
  | intr (word : BitVec 32)
  /-- CHANNEL_QUEUE_INDEX_WRITE (R169 to R173: bits 0 to 15 SQ tail, bits 16 to 31 CQ head). -/
  | channelQueueIndexWrite (c : ChanId) (word : BitVec 32)
  /-- ADMIN_QUEUE_INDEX_WRITE (R184). -/
  | adminQueueIndexWrite (word : BitVec 32)
  /-- EVENT_QUEUE_INDEX_WRITE (R192: bits 16 to 31 are the event head). -/
  | eventQueueIndexWrite (word : BitVec 32)
  /-- NO_REGISTER_WRITE (R201, R215: the low size bytes of value, at a byte offset of the window). -/
  | noRegisterWrite (offset size : Nat) (value : BitVec 64)
  /-- REQUEST_TAKE (R3). -/
  | requestTake (c : ChanId)
  /-- REQUEST_READ_END (R4, R5; none is a host fault). -/
  | requestReadEnd (c : ChanId) (r : Option Record32)
  /-- FLUSH_REQUEST_READ_END (R27, R28; none is a host fault). -/
  | flushRequestReadEnd (c : ChanId) (r : Option Record32)
  /-- STEP_FETCH_END (R10: the bytes from the list position on, of which the records asked for are used; none is a host fault). -/
  | stepFetchEnd (c : ChanId) (r : Option (BitVec 512))
  /-- READ_HOST_WRITE_END (R43). -/
  | readHostWriteEnd (c : ChanId) (ok : Bool)
  /-- BLOCK_IN_SLOT_WRITE_END (R53). -/
  | blockInSlotWriteEnd (c : ChanId) (ok : Bool)
  /-- BLOCK_OUT_SLOT_READ_END (R54; none is a host fault). -/
  | blockOutSlotReadEnd (c : ChanId) (v : Option Value)
  /-- COMPLETION_WRITE_END (R15, R16). -/
  | completionWriteEnd (c : ChanId) (ok : Bool)
  /-- EVENT_WRITE_END (R190, R191, R196). -/
  | eventWriteEnd (ok : Bool)
  /-- MESSAGE_END (R198). -/
  | messageEnd (v : VectorId) (ok : Bool)
  /-- WRITE (R42). -/
  | write (c : ChanId)
  /-- READ (R43). -/
  | read (c : ChanId)
  /-- MODIFY (R44 to R47). -/
  | modify (c : ChanId)
  /-- POLL (R48). -/
  | poll (c : ChanId)
  /-- BLOCK_IN (R51 to R53). -/
  | blockIn (c : ChanId)
  /-- BLOCK_OUT (R51, R52, R54). -/
  | blockOut (c : ChanId)
  /-- CALL (R56). -/
  | call (c : ChanId)
  /-- END (R57). -/
  | endStep (c : ChanId)
  /-- DELAY (R58). -/
  | delay (c : ChanId)
  /-- SIGNAL (R59). -/
  | signal (c : ChanId)
  /-- AWAIT (R60). -/
  | await (c : ChanId)
  /-- ATTEND (R62). -/
  | attend (c : ChanId)
  /-- ACCESS_DONE (R70, R74: RDY; lanes are AD0 to AD15 as the board drives them). -/
  | accessDone (lanes : Value)
  /-- TARGET_ERROR (R70, R71: BERR). -/
  | targetError
  /-- READY_TIMEOUT (R70, R73). -/
  | readyTimeout
  /-- STROBE_END (R71). -/
  | strobeEnd (lanes : Value)
  /-- GRANT_WAIT_EXPIRY (R81). -/
  | grantWaitExpiry (c : ChanId)
  /-- DELAY_EXPIRY (R58). -/
  | delayExpiry (c : ChanId)
  /-- POLL_INTERVAL_EXPIRY (R49). -/
  | pollIntervalExpiry (c : ChanId)
  /-- AWAIT_TIMEOUT (R61, R160). -/
  | awaitTimeout (c : ChanId)
  /-- ATTEND_TIMEOUT (R63, R151). -/
  | attendTimeout (c : ChanId)
  /-- TURNAROUND_EXPIRY (R110, R125). -/
  | turnaroundExpiry
  /-- LEASE_EXPIRY (R111). -/
  | leaseExpiry
  /-- LOCK_TIMER_EXPIRY (R113). -/
  | lockTimerExpiry
  /-- HOLD_TIMER_EXPIRY (R118). -/
  | holdTimerExpiry
  /-- PULSE_END (R129). -/
  | pulseEnd
  /-- CHANGE_TIMER_EXPIRY (R126, R127). -/
  | changeTimerExpiry
  /-- TIMEBASE_WRAP (R211). -/
  | timebaseWrap
  /-- REQ_RISE (R107). -/
  | reqRise
  /-- REQ_FALL (R107, R109). -/
  | reqFall
  /-- GNT_RISE (R117). -/
  | gntRise
  /-- GNT_FALL (R116, R119). -/
  | gntFall
  /-- OBSERVED_RESET (R72, R130). -/
  | observedReset
  /-- BRST_RELEASE (R87, R130). -/
  | brstRelease
  /-- ASSERTION_EDGE (R148 to R150). -/
  | assertionEdge (n : LineId)
  /-- ATTENTION_LINE_RELEASE (R147, R150). -/
  | attentionLineRelease (n : LineId)
  deriving DecidableEq, Repr

end Sys2Proof
end

