-- ==== Sys2Proof/Machine/State.lean ====
section
/-! DEFINITION. The state of the bridge as plain data, block by block as 00_scope lists them, and the state at
power-on. Each field's docstring names the rule that gives it; INVENTORY.md lists them all. -/

namespace Sys2Proof.Machine

/-! ## Codes -/

/-- Channel states (R1). -/
inductive ChanState where
  | disabled | stopped | idle | running | pausing | paused | aborting | faulted
  deriving DecidableEq, Repr

/-- Wait reasons (R2). -/
inductive WaitReason where
  | none | fetch | bus | access | timer | sync | attention | hostWrite | completionSpace
  deriving DecidableEq, Repr

/-- The twelve step kinds (R34). -/
inductive StepKind where
  | write | read | modify | poll | blockIn | blockOut | call | endStep | delay | signal | await | attend
  deriving DecidableEq, Repr

/-- The twenty-four completion statuses (11.6). -/
inductive Status where
  | ok | okWarn | aborted | flushed | badStep | stepBudget | linkOverflow | hostFault | regionMiss | regionDenied
  | misaligned | shadowMiss | shadowFull | targetError | readyTimeout | resetDuringAccess | busUnavailable | lockBroken
  | portIsolated | pollTimeout | syncTimeout | syncOverflow | attnTimeout | attnNotRouted
  deriving DecidableEq, Repr

/-- Admin statuses (R181, 11.6). -/
inductive AdminStatus where
  | ok | invalidField | badState | overlap | noSpace | notPermitted | timedOut | hostFault | unknownCommand
  deriving DecidableEq, Repr

/-- Channel faults (R31). -/
inductive ChanFault where
  | sqTailInvalid | cqHeadInvalid | requestReadFault | completionWriteFault
  deriving DecidableEq, Repr

/-- Port modes (R104). -/
inductive PortMode where
  | isolated | master | guest
  deriving DecidableEq, Repr

/-- Ownership states (R104). -/
inductive OwnState where
  | isolated | holding | settling | granted | released | requesting | pulsing
  deriving DecidableEq, Repr

/-- Region rights (R89). -/
inductive Rights where
  | readWrite | readOnly | writeOnly | writeOnlyShadowed
  deriving DecidableEq, Repr

/-- Region widths, 8 or 16 bits (R89). -/
inductive Width where
  | w8 | w16
  deriving DecidableEq, Repr

/-- Ready modes (R89). -/
inductive ReadyMode where
  | sampled | fixed
  deriving DecidableEq, Repr

/-- Purposes of an access request (R79). The direction of R79 follows from the purpose. -/
inductive Purpose where
  | write | read | modifyRead | modifyWrite | pollTry | blockIn | blockOut
  deriving DecidableEq, Repr

/-- Kinds of lock (R85). -/
inductive LockKind where
  | script | step
  deriving DecidableEq, Repr

/-- Attention modes (R147). -/
inductive AttnMode where
  | off | edge | level
  deriving DecidableEq, Repr

/-- Attention routes (R147). -/
inductive AttnRoute where
  | event | wait
  deriving DecidableEq, Repr

/-- Event kinds (R187). -/
inductive EventKind where
  | attention | leaseOverrun | channelFault | brstReset | preempted
  deriving DecidableEq, Repr

/-- Reset causes (R203). -/
inductive ResetCause where
  | powerOn | hostRequest | linkReset
  deriving DecidableEq, Repr

/-! ## Host transfers -/

/-- A write of host memory in flight: where it goes and the bytes it carries (R213). -/
structure HostWrite where
  addr : HostAddr
  bytes : List Byte
  deriving DecidableEq, Repr

/-! ## Rings (08) -/

/-- A submission and a completion ring with their indices, count and phase (R164). -/
structure RingPair where
  sqBase : HostAddr
  sqSize : Nat
  cqBase : HostAddr
  cqSize : Nat
  sqHead : Nat
  sqTail : Nat
  cqHead : Nat
  cqTail : Nat
  unconsumed : Nat
  phase : Bool
  deriving DecidableEq, Repr

/-! ## Channels (01, 02) -/

/-- The warnings of a script (R6, R8). -/
structure Warnings where
  shadowFull : Bool
  softTimeout : Bool
  attnSaturated : Bool
  deriving DecidableEq, Repr

/-- The progress of the current step (R6, and the kind's own rule). -/
inductive Progress where
  /-- started under R7, its record not yet checked and carried out (its own row of the table does that) -/
  | fresh
  /-- WRITE: its one access is to end (R42) -/
  | write
  /-- READ: its value is to come (R43) -/
  | read
  /-- READ: the value kept, not yet in host memory (R43) -/
  | readValue (v : Value)
  /-- MODIFY: its read half is to end (R45) -/
  | modRead
  /-- MODIFY: its write half is to end (R46). kept is the value read from the backplane, or none when the read half was
  served from the Shadow Store; issued says whether the write half has been issued (R64). -/
  | modWrite (kept : Option Value) (issued : Bool)
  /-- POLL: tries remaining and the last value read (R49) -/
  | poll (tries : Nat) (last : Value)
  /-- BLOCK_IN: units done, address of the next unit to present, and the value in hand (R51, R53) -/
  | blockIn (done : Nat) (next : Nat) (value : Option Value)
  /-- BLOCK_OUT: units done, address of the next unit, and the value in hand (R51, R54) -/
  | blockOut (done : Nat) (next : Nat) (value : Option Value)
  /-- DELAY, AWAIT or ATTEND in its wait, or cut off from it by a pause (R58, R60, R62) -/
  | waiting
  /-- AWAIT or ATTEND released from its waiter list in this happening; saturated says that ATTN_SATURATED joins the
  warnings (R149). No state between two happenings holds it. -/
  | released (saturated : Bool)
  deriving DecidableEq, Repr

/-- The current step: its record as fetched, the host address it was fetched from, and its progress (R6, R34). Its
ordinal is the script's ordinal counter (R7). -/
structure Step where
  addr : HostAddr
  bits : StepBits
  progress : Progress
  deriving DecidableEq, Repr

/-- An entry of the step window: a step record with its host address, or a fetch fault mark (R9, R10). -/
inductive Entry where
  | record (addr : HostAddr) (bits : StepBits)
  | fetchFault
  deriving DecidableEq, Repr

/-- The end of a script once fixed (R13). -/
structure Ending where
  status : Status
  ordinal : Nat
  detail : Detail
  deriving DecidableEq, Repr

/-- The active script record (R6), with the check of R5 passed or not and the end once fixed (R13). -/
structure Script where
  tagValid : Bool
  tag : BitVec 16
  notify : Bool
  lockBus : Bool
  haltOnError : Bool
  shadowStrict : Bool
  budget : Nat
  executed : Nat
  ordinals : Nat
  warnings : Warnings
  current : Option Step
  checked : Bool
  listPos : HostAddr
  window : List Entry
  links : List HostAddr
  ending : Option Ending
  deriving DecidableEq, Repr

/-- A step fetch in flight (R9), with whether its outcome is to be discarded (R10, R11). -/
structure Fetch where
  addr : HostAddr
  count : Nat
  discard : Bool
  deriving DecidableEq, Repr

/-- A channel's data transfer in flight, at most one (R9). -/
inductive Data where
  | requestRead (addr : HostAddr)
  | flushRead (addr : HostAddr)
  | readWrite (w : HostWrite)
  | slotWrite (w : HostWrite)
  | slotRead (addr : HostAddr)
  | completion (w : HostWrite)
  deriving DecidableEq, Repr

/-- An abort that has reached the channel (R25, R27): CURRENT, with whether the channel was PAUSED, or FLUSH, with the
flush boundary and the number of FLUSHED completions posted. -/
inductive Abort where
  | current (fromPaused : Bool)
  | flush (boundary : Nat) (posted : Nat)
  deriving DecidableEq, Repr

/-- One channel. -/
structure Channel where
  st : ChanState
  wait : WaitReason
  rings : Option RingPair
  reserved : Bool
  grantLimit : Nat
  notifyAll : Bool
  script : Option Script
  fetch : Option Fetch
  data : Option Data
  timer : Option Nat
  abort : Option Abort
  deriving DecidableEq, Repr

/-! ## Region Table (04) -/

/-- A valid Region Table entry (R89). An invalid entry, 0 in every field, is `none`. -/
structure Region where
  base : BusAddr
  pages : Nat
  width : Width
  rights : Rights
  setup : Nat
  strobe : Nat
  hold : Nat
  readyMode : ReadyMode
  timeout : Nat
  retries : Nat
  deriving DecidableEq, Repr

/-- A SET_REGION or CLEAR_REGION that waits for an access to end (R97). -/
inductive RegionChange where
  | set (i : RegionId) (g : Region)
  | clear (i : RegionId)
  deriving DecidableEq, Repr

/-! ## Port Arbiter and Backplane Access Unit (03) -/

/-- A presented access request (R79). -/
structure Request where
  addr : BusAddr
  purpose : Purpose
  value : Option Value
  mark : Option LockKind
  attempt : Nat
  presentedAt : Time
  deriving DecidableEq, Repr

/-- The in-flight record (R68), with what a retry carries on (R73): the lock mark, and the value taken at the issue (R69),
whole. Which part of the value is driven and recorded follows from the width of the region (R67). -/
structure InFlight where
  chan : ChanId
  addr : BusAddr
  purpose : Purpose
  value : Option Value
  mark : Option LockKind
  index : RegionId
  region : Region
  attempt : Nat
  deriving DecidableEq, Repr

/-- The Port Arbiter (R68, R79, R83, R85). -/
structure Arbiter where
  presented : Vector (Option Request) 4
  lastServed : ChanId
  lock : Option (ChanId × LockKind)
  inflight : Option InFlight
  deriving DecidableEq, Repr

/-! ## Ownership Controller (05) -/

/-- The four port parameters (R105). -/
structure PortParams where
  turnaround : Nat
  leaseLimit : Nat
  lockLimit : Nat
  holdLimit : Nat
  deriving DecidableEq, Repr

/-- A port command that waits (R124, R127). -/
inductive PortCmd where
  | setMode (mode : PortMode) (params : PortParams)
  | reset (width : Nat)
  deriving DecidableEq, Repr

/-- The Ownership Controller. A running timer holds the limit it started with (R105). -/
structure Ownership where
  mode : PortMode
  state : OwnState
  params : PortParams
  turnTimer : Option Nat
  leaseTimer : Option Nat
  lockTimer : Option Nat
  holdTimer : Option Nat
  pulseTimer : Option Nat
  changeTimer : Option Nat
  /-- the guest hold limit has passed since the port entered HOLDING (R82 claim 3, R118) -/
  holdPassed : Bool
  /-- a lock break fixed by the lock timer waits for the access to end (R113) -/
  breakDue : Bool
  /-- a preemption waits for the access to end (R119) -/
  preemptDue : Bool
  /-- a SET_PORT_MODE or BACKPLANE_RESET that waits (R124, R127) -/
  cmd : Option PortCmd
  /-- the new mode of a passage between MASTER and GUEST (R125) -/
  passage : Option PortMode
  /-- the running pulse or passage completes an admin command (R129, R133) -/
  answers : Bool
  /-- REQ as driven by the peer master (R106) -/
  req : Bool
  /-- GNT as driven by the default owner (R106) -/
  gnt : Bool
  /-- BRST asserted by another party (R106, R130) -/
  brst : Bool
  deriving DecidableEq, Repr

/-! ## Shadow Store (06) -/

/-- A Shadow Store entry (R134). -/
structure ShadowEntry where
  addr : BusAddr
  value : Value
  index : RegionId
  deriving DecidableEq, Repr

/-! ## Attention Unit and Sync Unit (07) -/

/-- An entry of an attention line's waiter list (R151). -/
structure AttnWaiter where
  chan : ChanId
  timeout : Option Time
  deriving DecidableEq, Repr

/-- One attention line (R147). -/
structure AttnLine where
  mode : AttnMode
  route : AttnRoute
  level : Bool
  count : Nat
  saturated : Bool
  waiters : List AttnWaiter
  deriving DecidableEq, Repr

/-- An entry of a sync counter's waiter list (R156). -/
structure SyncWaiter where
  chan : ChanId
  threshold : Nat
  consume : Bool
  timeout : Option Time
  deriving DecidableEq, Repr

/-- One sync counter (R156). -/
structure SyncCounter where
  value : Nat
  waiters : List SyncWaiter
  deriving DecidableEq, Repr

/-! ## Event Unit and Interrupt Unit (09) -/

/-- An event record as held (R188); its phase is given when its write starts. -/
structure EventRecord where
  kind : EventKind
  source : Nat
  occurrences : Nat
  stamp : Time
  detail : Detail
  deriving DecidableEq, Repr

/-- The event write in flight (R190). stale says that it belongs to a ring a CONFIGURE_EVENTS has abandoned (R196). -/
structure EventWrite where
  record : EventRecord
  write : HostWrite
  stale : Bool
  deriving DecidableEq, Repr

/-- The Event Unit (R188). A size of 0 means not configured. -/
structure EventUnit where
  base : HostAddr
  size : Nat
  tail : Nat
  head : Nat
  unconsumed : Nat
  phase : Bool
  write : Option EventWrite
  holding : List EventRecord
  fault : Bool
  deriving DecidableEq, Repr

/-- One interrupt vector (R198), with the number of its messages in flight. -/
structure IntVector where
  masked : Bool
  waiting : Bool
  messages : Nat
  deriving DecidableEq, Repr

/-! ## Admin Processor (08) -/

/-- What a command in progress waits for (R180). -/
inductive AdminWait where
  | start (c : ChanId)
  | pause (c : ChanId)
  | abort (c : ChanId)
  | flush (c : ChanId)
  | release (c : ChanId)
  | region
  | portMode
  | pulse
  deriving DecidableEq, Repr

/-- The command in progress (R178, R180 to R182): none, its read in flight, taken and waiting for its owner, its
snapshot write in flight, or its admin completion write in flight. -/
inductive AdminProgress where
  | idle
  | reading (addr : HostAddr)
  | waiting (id : BitVec 16) (on : AdminWait)
  | snapshot (id : BitVec 16) (detail : Detail) (w : HostWrite)
  | completing (w : HostWrite)
  deriving DecidableEq, Repr

/-- The admin rings and the Admin Processor. ADMIN_BASE is ring.sqBase (R176). -/
structure Admin where
  ring : RingPair
  reserved : Bool
  fault : Bool
  progress : AdminProgress
  deriving DecidableEq, Repr

/-! ## The bridge -/

/-- The state of the bridge, with the queue of commands that wait. -/
structure State where
  /-- the commands that wait, first in, first out (the cut of this row) -/
  pending : List Instr
  /-- STATUS.READY (R203) -/
  ready : Bool
  /-- the reset cause of STATUS (R203) -/
  cause : ResetCause
  /-- CONTROL.ENABLE (R202) -/
  enable : Bool
  /-- the timebase (R211) -/
  timebase : Time
  admin : Admin
  chans : Vector Channel 4
  arb : Arbiter
  regions : Vector (Option Region) 16
  regionWait : Option RegionChange
  own : Ownership
  shadow : List ShadowEntry
  attn : Vector AttnLine 8
  sync : Vector SyncCounter 8
  events : EventUnit
  vectors : Vector IntVector 6
  deriving DecidableEq, Repr

/-- Why a command makes the machine stop. No rule of the spec stops the bridge: every failure is an outcome it reports
and goes on from. So nothing raises a fault and the type has no constructor (safe: nothing is left out by it). -/
inductive Fault where
  deriving DecidableEq, Repr

/-- Why a command has no meaning. -/
inductive Refusal where
  /-- an arm of exec that has no meaning yet, named as spec/opcode_table.json names it. Raised by exec alone; safe,
  since nothing can be proved of what the command does. -/
  | notModelled (mnemonic : String)
  deriving DecidableEq, Repr

/-! ## Power-on values -/

/-- A channel at power-on (R33). -/
def Channel.reset : Channel :=
  { st := .disabled, wait := .none, rings := none, reserved := false, grantLimit := 0, notifyAll := false,
    script := none, fetch := none, data := none, timer := none, abort := none }

/-- The admin rings at power-on (R176, R177): ADMIN_BASE 0, the completion ring behind the 1024 bytes of the
submission ring. -/
def Admin.reset : Admin :=
  { ring := { sqBase := 0, sqSize := Config.adminSlots, cqBase := 1024, cqSize := Config.adminSlots, sqHead := 0,
              sqTail := 0, cqHead := 0, cqTail := 0, unconsumed := 0, phase := true },
    reserved := false, fault := false, progress := .idle }

/-- The Port Arbiter at power-on (R88). -/
def Arbiter.reset : Arbiter :=
  { presented := Vector.replicate 4 none, lastServed := 3, lock := none, inflight := none }

/-- The Ownership Controller at power-on (R132). The three levels are a DESIGN CHOICE, log entry 5. -/
def Ownership.reset : Ownership :=
  { mode := .isolated, state := .isolated,
    params := { turnaround := 0, leaseLimit := 0, lockLimit := 0, holdLimit := 0 },
    turnTimer := none, leaseTimer := none, lockTimer := none, holdTimer := none, pulseTimer := none,
    changeTimer := none, holdPassed := false, breakDue := false, preemptDue := false, cmd := none, passage := none,
    answers := false, req := false, gnt := false, brst := false }

/-- An attention line at power-on (R155). The level is a DESIGN CHOICE, log entry 5. -/
def AttnLine.reset : AttnLine :=
  { mode := .off, route := .event, level := false, count := 0, saturated := false, waiters := [] }

/-- A sync counter at power-on (R163). -/
def SyncCounter.reset : SyncCounter := { value := 0, waiters := [] }

/-- The Event Unit at power-on (R197). -/
def EventUnit.reset : EventUnit :=
  { base := 0, size := 0, tail := 0, head := 0, unconsumed := 0, phase := true, write := none, holding := [],
    fault := false }

/-- A vector at power-on (R200). -/
def IntVector.reset : IntVector := { masked := true, waiting := false, messages := 0 }

/-- The bridge at power-on, while it initialises (R210): READY 0 with cause POWER_ON. -/
def State.reset : State :=
  { pending := [], ready := false, cause := .powerOn, enable := false, timebase := 0, admin := Admin.reset,
    chans := Vector.replicate 4 Channel.reset, arb := Arbiter.reset, regions := Vector.replicate 16 none,
    regionWait := none, own := Ownership.reset, shadow := [], attn := Vector.replicate 8 AttnLine.reset,
    sync := Vector.replicate 8 SyncCounter.reset, events := EventUnit.reset,
    vectors := Vector.replicate 6 IntVector.reset }

end Sys2Proof.Machine
end

