-- ==== Sys2Proof/Machine/Operands.lean ====
section
/-! DEFINITION. The operands of the commands: the fields of the records the host writes (11.2), the positions reserved
in each (R212), and the checks a record's fields must pass before it acts. -/

namespace Sys2Proof.Machine

/-! ## Fields and reserved positions -/

/-- The field of `size` bytes at byte `off` of a record, least significant byte first (11, opening paragraph). -/
def bytesAt {n : Nat} (r : BitVec n) (off size : Nat) : BitVec (8 * size) := r.extractLsb' (8 * off) (8 * size)

/-- Bit `k` of byte `off` of a record. -/
def bitAt {n : Nat} (r : BitVec n) (off k : Nat) : Bool := r.getLsbD (8 * off + k)

/-- A run of bits, as (first bit, number of bits), covered by a field of `size` bytes at byte `off`. -/
def byteRun (off size : Nat) : Nat × Nat := (8 * off, 8 * size)

/-- The run of one flag bit. -/
def flagRun (off k : Nat) : Nat × Nat := (8 * off + k, 1)

/-- The positions of an n-bit record that the given runs cover. -/
def usedBits (n : Nat) (runs : List (Nat × Nat)) : BitVec n :=
  runs.foldl (fun m p => m ||| BitVec.ofNat n ((2 ^ p.2 - 1) * 2 ^ p.1)) 0

/-- Every position that no run covers is 0 (R212). -/
def reservedClear {n : Nat} (r : BitVec n) (runs : List (Nat × Nat)) : Bool := r &&& ~~~(usedBits n runs) == 0

/-- The bytes from `a` on, `size` of them (at least one), do not pass the highest host address (R35, R179). -/
def hostRangeOk (a : HostAddr) (size : Nat) : Bool := a.toNat + size ≤ Config.hostAddresses

/-- A host address is a multiple of `m`. -/
def multipleOf (a : HostAddr) (m : Nat) : Bool := a.toNat % m == 0

/-- A host address plus a number of bytes. Past the highest host address the value is free (log entry 8). -/
def hostAdd (a : HostAddr) (k : Nat) : HostAddr :=
  if a.toNat + k < Config.hostAddresses then BitVec.ofNat 64 (a.toNat + k) else Config.hostAddressPastTop (a.toNat + k)

/-- A ring size: a power of two within the bounds (R18, R195). -/
def ringSizeOk (lo hi size : Nat) : Bool := lo ≤ size && size ≤ hi && size == 2 ^ Nat.log2 size

/-- A byte as a number below n (a channel, a line, an index). -/
def indexOf (n : Nat) (v : Nat) : Option (Fin n) := if h : v < n then some ⟨v, h⟩ else none

/-! ## Script requests, 32 bytes (11.2) -/

namespace RequestRecord

def tag (r : Record32) : BitVec 16 := bytesAt r 0 2
def notify (r : Record32) : Bool := bitAt r 2 0
def lockBus (r : Record32) : Bool := bitAt r 2 1
def haltOnError (r : Record32) : Bool := bitAt r 2 2
def shadowStrict (r : Record32) : Bool := bitAt r 2 3
def budget (r : Record32) : BitVec 16 := bytesAt r 4 2
def listAddr (r : Record32) : HostAddr := bytesAt r 8 8

/-- The positions of a request that a field or a defined flag uses. -/
def runs : List (Nat × Nat) :=
  [byteRun 0 2, flagRun 2 0, flagRun 2 1, flagRun 2 2, flagRun 2 3, byteRun 4 2, byteRun 8 8]

/-- The check of R5: the list address is a multiple of 16, and every reserved field and undefined flag is 0. -/
def ok (r : Record32) : Bool := multipleOf (listAddr r) 16 && reservedClear r runs

end RequestRecord

/-! ## Step records, 16 bytes (R34, 11.2) -/

/-- The step kind a code names (11.6). -/
def stepKindOf (code : BitVec 8) : Option StepKind :=
  match code.toNat with
  | 0x01 => some .write
  | 0x02 => some .read
  | 0x03 => some .modify
  | 0x04 => some .poll
  | 0x05 => some .blockIn
  | 0x06 => some .blockOut
  | 0x07 => some .call
  | 0x08 => some .endStep
  | 0x09 => some .delay
  | 0x0A => some .signal
  | 0x0B => some .await
  | 0x0C => some .attend
  | _ => none

namespace StepRecord

def kind (r : StepBits) : Option StepKind := stepKindOf (bytesAt r 0 1)
def locked (r : StepBits) : Bool := bitAt r 1 0
def fixedAddr (r : StepBits) : Bool := bitAt r 1 1
def consume (r : StepBits) : Bool := bitAt r 1 2
def soft (r : StepBits) : Bool := bitAt r 1 3
/-- The address field, 24 bits (R34). -/
def addr (r : StepBits) : BusAddr := bytesAt r 2 3
def count (r : StepBits) : Nat := (bytesAt r 6 2).toNat
/-- The operand as one host address (READ, BLOCK_IN, BLOCK_OUT, CALL). -/
def hostAddr (r : StepBits) : HostAddr := bytesAt r 8 8
/-- WRITE: the value. -/
def value (r : StepBits) : Value := bytesAt r 8 2
/-- MODIFY: the clear-mask. -/
def clearMask (r : StepBits) : Value := bytesAt r 8 2
/-- MODIFY: the set-mask. -/
def setMask (r : StepBits) : Value := bytesAt r 10 2
/-- POLL: the mask. -/
def mask (r : StepBits) : Value := bytesAt r 8 2
/-- POLL: the match. -/
def wanted (r : StepBits) : Value := bytesAt r 10 2
/-- POLL: the interval in microseconds. -/
def interval (r : StepBits) : Nat := (bytesAt r 12 2).toNat
/-- POLL: the tries. -/
def tries (r : StepBits) : Nat := (bytesAt r 14 2).toNat
/-- AWAIT, ATTEND: the timeout in microseconds, 0 for none. -/
def timeout (r : StepBits) : BitVec 32 := bytesAt r 8 4

/-- The positions each kind uses, the kind byte among them (R34, 11.2). -/
def runs : StepKind → List (Nat × Nat)
  | .write => [byteRun 0 1, byteRun 2 3, byteRun 8 2]
  | .read => [byteRun 0 1, byteRun 2 3, byteRun 8 8]
  | .modify => [byteRun 0 1, flagRun 1 0, byteRun 2 3, byteRun 8 2, byteRun 10 2]
  | .poll => [byteRun 0 1, flagRun 1 3, byteRun 2 3, byteRun 8 8]
  | .blockIn => [byteRun 0 1, flagRun 1 0, flagRun 1 1, byteRun 2 3, byteRun 6 2, byteRun 8 8]
  | .blockOut => [byteRun 0 1, flagRun 1 0, flagRun 1 1, byteRun 2 3, byteRun 6 2, byteRun 8 8]
  | .call => [byteRun 0 1, byteRun 8 8]
  | .endStep => [byteRun 0 1]
  | .delay => [byteRun 0 1, byteRun 6 2]
  | .signal => [byteRun 0 1, byteRun 2 3, byteRun 6 2]
  | .await => [byteRun 0 1, flagRun 1 2, flagRun 1 3, byteRun 2 3, byteRun 6 2, byteRun 8 4]
  | .attend => [byteRun 0 1, flagRun 1 3, byteRun 2 3, byteRun 8 4]

/-- The address field names an index 0..7 (R35). -/
def indexOk (r : StepBits) : Bool := (addr r).toNat ≤ 7

/-- A block step's checks (R35, R51). -/
def blockOk (r : StepBits) : Bool :=
  1 ≤ count r && count r ≤ 4096 && hostRangeOk (hostAddr r) (2 * count r) &&
    (fixedAddr r || (addr r).toNat + count r - 1 ≤ Config.topBusAddr)

/-- The ranges each kind gives its fields (R35, R48, R51, R56, R58, R59, R60, R62). -/
def rangesOk (r : StepBits) : StepKind → Bool
  | .write => true
  | .read => hostRangeOk (hostAddr r) 2
  | .modify => true
  | .poll => tries r != 0 && wanted r &&& ~~~(mask r) == 0
  | .blockIn => blockOk r
  | .blockOut => blockOk r
  | .call => multipleOf (hostAddr r) 16 && hostRangeOk (hostAddr r) 16
  | .endStep => true
  | .delay => count r != 0
  | .signal => indexOk r && count r != 0
  | .await => indexOk r
  | .attend => indexOk r

/-- The check of R35 made when a step of this kind starts. -/
def ok (r : StepBits) (k : StepKind) : Bool := reservedClear r (runs k) && rangesOk r k

/-- The counter or line a SIGNAL, AWAIT or ATTEND names, once its check has passed. -/
def index (r : StepBits) : Fin 8 := ⟨(addr r).toNat % 8, Nat.mod_lt _ (by decide)⟩

end StepRecord

/-! ## Admin commands, 32 bytes (11.2) -/

/-- The seventeen admin commands (11.6). -/
inductive AdminCode where
  | configureChannel | startChannel | pauseChannel | abortChannel | releaseChannel | queryChannel | setRegion
  | clearRegion | queryRegions | setPortMode | backplaneReset | seedShadow | purgeShadow | queryShadow | setAttention
  | setSync | configureEvents
  deriving DecidableEq, Repr

/-- The command a code names (11.6). -/
def adminCodeOf (code : BitVec 8) : Option AdminCode :=
  match code.toNat with
  | 0x01 => some .configureChannel
  | 0x02 => some .startChannel
  | 0x03 => some .pauseChannel
  | 0x04 => some .abortChannel
  | 0x05 => some .releaseChannel
  | 0x06 => some .queryChannel
  | 0x07 => some .setRegion
  | 0x08 => some .clearRegion
  | 0x09 => some .queryRegions
  | 0x0A => some .setPortMode
  | 0x0B => some .backplaneReset
  | 0x0C => some .seedShadow
  | 0x0D => some .purgeShadow
  | 0x0E => some .queryShadow
  | 0x0F => some .setAttention
  | 0x10 => some .setSync
  | 0x11 => some .configureEvents
  | _ => none

namespace AdminRecord

def code (r : Record32) : BitVec 8 := bytesAt r 0 1
def id (r : Record32) : BitVec 16 := bytesAt r 2 2
/-- The parameter field of `size` bytes at byte `off`, as a number. -/
def param (r : Record32) (off size : Nat) : Nat := (bytesAt r off size).toNat
/-- A host address parameter at byte `off`. -/
def host (r : Record32) (off : Nat) : HostAddr := bytesAt r off 8

/-- The parameter positions each command uses (11.2). Under PURGE_SHADOW scope ALL the two addresses are reserved
(R144, R212). -/
def params (r : Record32) : AdminCode → List (Nat × Nat)
  | .configureChannel =>
      [byteRun 4 1, flagRun 5 0, byteRun 6 2, byteRun 8 2, byteRun 12 4, byteRun 16 8, byteRun 24 8]
  | .startChannel => [byteRun 4 1]
  | .pauseChannel => [byteRun 4 1]
  | .abortChannel => [byteRun 4 1, byteRun 5 1]
  | .releaseChannel => [byteRun 4 1]
  | .queryChannel => [byteRun 4 1, byteRun 24 8]
  | .setRegion =>
      [byteRun 4 1, byteRun 5 1, byteRun 6 1, byteRun 7 1, byteRun 8 4, byteRun 12 4, byteRun 16 1, byteRun 17 1,
       byteRun 18 1, byteRun 19 1, byteRun 20 2]
  | .clearRegion => [byteRun 4 1]
  | .queryRegions => [byteRun 24 8]
  | .setPortMode => [byteRun 4 1, byteRun 5 1, byteRun 8 4, byteRun 12 4, byteRun 16 4, byteRun 20 4]
  | .backplaneReset => [byteRun 4 2, byteRun 8 4]
  | .seedShadow => [byteRun 8 4, byteRun 12 4]
  | .purgeShadow => if param r 4 1 = 0 then [byteRun 4 1] else [byteRun 4 1, byteRun 8 4, byteRun 12 4]
  | .queryShadow => [byteRun 24 8]
  | .setAttention => [byteRun 4 1, byteRun 5 1, byteRun 6 1]
  | .setSync => [byteRun 4 1, byteRun 8 4]
  | .configureEvents => [byteRun 4 2, byteRun 24 8]

/-- The second check of R179: no reserved position and no undefined flag is non-zero. -/
def reservedOk (r : Record32) (k : AdminCode) : Bool := reservedClear r (byteRun 0 1 :: byteRun 2 2 :: params r k)

/-- The largest snapshot a command writes, 0 where it writes none (R214). -/
def snapshotMax : AdminCode → Nat
  | .queryChannel => 16
  | .queryRegions => 256
  | .queryShadow => 528
  | _ => 0

/-- The third check of R179: a snapshot would not pass the highest host address. -/
def rangeOk (r : Record32) (k : AdminCode) : Bool :=
  snapshotMax k == 0 || hostRangeOk (host r 24) (snapshotMax k)

/-- The common checks of R179 on the record of a known command. -/
def commonOk (r : Record32) (k : AdminCode) : Bool := reservedOk r k && rangeOk r k

end AdminRecord

/-! ## Code fields of admin commands (11.6) -/

def portModeOf (v : Nat) : Option PortMode :=
  match v with
  | 0 => some .isolated
  | 1 => some .master
  | 2 => some .guest
  | _ => none

def rightsOf (v : Nat) : Option Rights :=
  match v with
  | 0 => some .readWrite
  | 1 => some .readOnly
  | 2 => some .writeOnly
  | 3 => some .writeOnlyShadowed
  | _ => none

def readyModeOf (v : Nat) : Option ReadyMode :=
  match v with
  | 0 => some .sampled
  | 1 => some .fixed
  | _ => none

/-- The width field of SET_REGION is the number 8 or 16 (11.2). -/
def widthOf (v : Nat) : Option Width :=
  match v with
  | 8 => some .w8
  | 16 => some .w16
  | _ => none

def attnModeOf (v : Nat) : Option AttnMode :=
  match v with
  | 0 => some .off
  | 1 => some .edge
  | 2 => some .level
  | _ => none

def attnRouteOf (v : Nat) : Option AttnRoute :=
  match v with
  | 0 => some .event
  | 1 => some .wait
  | _ => none

/-- The Region a SET_REGION record gives, when every value is in the range of its field (R95). -/
def regionOf (r : Record32) : Option Region :=
  match widthOf (AdminRecord.param r 5 1), rightsOf (AdminRecord.param r 6 1), readyModeOf (AdminRecord.param r 7 1) with
  | some w, some g, some m =>
    let base := AdminRecord.param r 8 4
    let pages := AdminRecord.param r 12 4
    if base % 256 = 0 ∧ base ≤ 0xFFFF00 ∧ 1 ≤ pages ∧ pages ≤ 65536 ∧ base + 256 * pages - 1 ≤ Config.topBusAddr ∧
        AdminRecord.param r 16 1 ≤ 7 ∧ 1 ≤ AdminRecord.param r 17 1 ∧ AdminRecord.param r 17 1 ≤ 15 ∧
        AdminRecord.param r 18 1 ≤ 7 ∧ AdminRecord.param r 19 1 ≤ 3 ∧ 1 ≤ AdminRecord.param r 20 2 ∧
        AdminRecord.param r 20 2 ≤ 4095 then
      some { base := BitVec.ofNat 24 base, pages := pages, width := w, rights := g, setup := AdminRecord.param r 16 1,
             strobe := AdminRecord.param r 17 1, hold := AdminRecord.param r 18 1, readyMode := m,
             timeout := AdminRecord.param r 20 2, retries := AdminRecord.param r 19 1 }
    else none
  | _, _, _ => none

end Sys2Proof.Machine
end

