-- ==== Sys2Proof/Decode.lean ====
section
/-! DEFINITION. Decoding. The table gives no row any bits: a command is a happening and not a word, so no word spells one.
What the spec does spell out in bits is here too: the admin command a record names (11.6), and the command a register write
makes (11.5). -/

namespace Sys2Proof

/-- The command a word spells by the table's bits. No row of the table has any, so none (log entry 6). -/
def decodeTableWord (_nbits _w : Nat) : Option Instr := none

/-- The command that the read of an admin record with success makes: the row its code and, for ABORT_CHANNEL, its mode name
(R179, 11.6). -/
def decodeAdminRecord (r : Record32) : Instr :=
  match Machine.adminCodeOf (Machine.AdminRecord.code r) with
  | some .configureChannel => .configureChannel r
  | some .startChannel => .startChannel r
  | some .pauseChannel => .pauseChannel r
  | some .abortChannel => if Machine.AdminRecord.param r 5 1 = 1 then .abortChannelFlush r else .abortChannel r
  | some .releaseChannel => .releaseChannel r
  | some .queryChannel => .queryChannel r
  | some .setRegion => .setRegion r
  | some .clearRegion => .clearRegion r
  | some .queryRegions => .queryRegions r
  | some .setPortMode => .setPortMode r
  | some .backplaneReset => .backplaneReset r
  | some .seedShadow => .seedShadow r
  | some .purgeShadow => .purgeShadow r
  | some .queryShadow => .queryShadow r
  | some .setAttention => .setAttention r
  | some .setSync => .setSync r
  | some .configureEvents => .configureEvents r
  | none => .unknownCommand r

/-- The command that a write of the register window makes: `size` bytes of `value` at a byte offset (R201, R202, R204,
R215). A write of 8 bytes at 0x10 covers INTR and the empty offset behind it, is aligned and spans no two registers; R215
gives it no outcome, and here it has no effect (DESIGN CHOICE, log entry 33). A size R215 does not name makes a write of no
register (DESIGN CHOICE, log entry 34). -/
def decodeRegisterWrite (offset size : Nat) (value : BitVec 64) : Instr :=
  let word : BitVec 32 := value.extractLsb' 0 32
  if size = 8 ∧ offset = 0x08 then .adminBase (.full value)
  else if size = 4 then
    match offset with
    | 0x00 => if word.getLsbD 1 then .bridgeReset (word.getLsbD 0) else .enable (word.getLsbD 0)
    | 0x08 => .adminBase (.low word)
    | 0x0C => .adminBase (.high word)
    | 0x10 => .intr word
    | 0x20 => .adminQueueIndexWrite word
    | 0x24 => .eventQueueIndexWrite word
    | 0x28 => .channelQueueIndexWrite 0 word
    | 0x2C => .channelQueueIndexWrite 1 word
    | 0x30 => .channelQueueIndexWrite 2 word
    | 0x34 => .channelQueueIndexWrite 3 word
    | _ => .noRegisterWrite offset size value
  else .noRegisterWrite offset size value

end Sys2Proof
end

