-- ==== Sys2Proof/Machine/Flags.lean ====
section
/-! DEFINITION. The code values of section 11.6 and the bytes of the records and snapshots the bridge writes (11.3,
11.4): status and warning flags, phases, and the words of the register window. -/

namespace Sys2Proof.Machine

/-! ## Code values (11.6) -/

def Status.code : Status → BitVec 8
  | .ok => 0x00 | .okWarn => 0x01 | .aborted => 0x02 | .flushed => 0x03 | .badStep => 0x10 | .stepBudget => 0x11
  | .linkOverflow => 0x12 | .hostFault => 0x18 | .regionMiss => 0x20 | .regionDenied => 0x21 | .misaligned => 0x22
  | .shadowMiss => 0x28 | .shadowFull => 0x29 | .targetError => 0x30 | .readyTimeout => 0x31
  | .resetDuringAccess => 0x32 | .busUnavailable => 0x38 | .lockBroken => 0x39 | .portIsolated => 0x3A
  | .pollTimeout => 0x40 | .syncTimeout => 0x41 | .syncOverflow => 0x42 | .attnTimeout => 0x43
  | .attnNotRouted => 0x44

/-- OK and OK_WARN are the two statuses of a script that ended without an error (R14, R15). -/
def Status.isOk : Status → Bool
  | .ok => true
  | .okWarn => true
  | _ => false

def AdminStatus.code : AdminStatus → BitVec 8
  | .ok => 0 | .invalidField => 1 | .badState => 2 | .overlap => 3 | .noSpace => 4 | .notPermitted => 5
  | .timedOut => 6 | .hostFault => 7 | .unknownCommand => 8

def ChanState.code : ChanState → BitVec 8
  | .disabled => 0 | .stopped => 1 | .idle => 2 | .running => 3 | .pausing => 4 | .paused => 5 | .aborting => 6
  | .faulted => 7

def WaitReason.code : WaitReason → BitVec 8
  | .none => 0 | .fetch => 1 | .bus => 2 | .access => 3 | .timer => 4 | .sync => 5 | .attention => 6 | .hostWrite => 7
  | .completionSpace => 8

def ChanFault.code : ChanFault → Nat
  | .sqTailInvalid => 1 | .cqHeadInvalid => 2 | .requestReadFault => 3 | .completionWriteFault => 4

def PortMode.code : PortMode → Nat
  | .isolated => 0 | .master => 1 | .guest => 2

def OwnState.code : OwnState → Nat
  | .isolated => 0 | .holding => 1 | .settling => 2 | .granted => 3 | .released => 4 | .requesting => 5 | .pulsing => 6

def Rights.code : Rights → BitVec 8
  | .readWrite => 0 | .readOnly => 1 | .writeOnly => 2 | .writeOnlyShadowed => 3

def ReadyMode.code : ReadyMode → BitVec 8
  | .sampled => 0 | .fixed => 1

def EventKind.code : EventKind → BitVec 8
  | .attention => 1 | .leaseOverrun => 2 | .channelFault => 3 | .brstReset => 4 | .preempted => 5

def ResetCause.code : ResetCause → BitVec 2
  | .powerOn => 0 | .hostRequest => 1 | .linkReset => 2

/-- The width as the number 8 or 16 (11.4). -/
def Width.bits : Width → Nat
  | .w8 => 8
  | .w16 => 16

/-- The size of a unit in bytes (R52, R67). -/
def Width.unit : Width → Nat
  | .w8 => 1
  | .w16 => 2

/-! ## Warnings (R6, R8) -/

def Warnings.empty : Warnings := { shadowFull := false, softTimeout := false, attnSaturated := false }

/-- No warning is held. -/
def Warnings.isEmpty (w : Warnings) : Bool := !w.shadowFull && !w.softTimeout && !w.attnSaturated

/-- The warning bits of byte 3 of a completion record (11.3). -/
def Warnings.bits (w : Warnings) : Nat :=
  (if w.shadowFull then 1 else 0) + (if w.softTimeout then 2 else 0) + (if w.attnSaturated then 4 else 0)

/-! ## Bytes of the records the bridge writes (R213, R214) -/

/-- A number in n bytes, least significant byte first. -/
def leBytes : Nat → Nat → List Byte
  | 0, _ => []
  | n + 1, v => BitVec.ofNat 8 v :: leBytes n (v / 256)

/-- The phase bit as a number. -/
def phaseBit (p : Bool) : Nat := if p then 1 else 0

/-- The completion record (R14, 11.3). -/
def completionBytes (tag : BitVec 16) (status : Status) (w : Warnings) (phase : Bool) (sqHead executed ordinal : Nat)
    (detail : Detail) : List Byte :=
  leBytes 2 tag.toNat ++ [status.code] ++ leBytes 1 (w.bits + 128 * phaseBit phase) ++ leBytes 2 sqHead ++
    leBytes 3 (min executed Config.field24Max) ++ leBytes 3 (min ordinal Config.field24Max) ++ leBytes 4 detail.toNat

/-- The admin completion record (R181, 11.3). -/
def adminCompletionBytes (id : BitVec 16) (status : AdminStatus) (phase : Bool) (sqHead : Nat) (detail : Detail) :
    List Byte :=
  leBytes 2 id.toNat ++ [status.code] ++ leBytes 1 (phaseBit phase) ++ leBytes 2 sqHead ++ leBytes 2 0 ++
    leBytes 4 detail.toNat ++ leBytes 4 0

/-- The event record (R188, 11.3). -/
def eventBytes (r : EventRecord) (phase : Bool) : List Byte :=
  [r.kind.code] ++ leBytes 1 r.source ++ leBytes 2 r.occurrences ++ leBytes 1 (phaseBit phase) ++ leBytes 3 0 ++
    leBytes 4 r.stamp.toNat ++ leBytes 4 r.detail.toNat

/-- A slot of READ or BLOCK_IN data: a value, least significant byte first (R41). -/
def slotBytes (v : Value) : List Byte := leBytes 2 v.toNat

/-- A region entry record, every byte 0 for an invalid entry (11.4). -/
def regionBytes : Option Region → List Byte
  | none => leBytes 16 0
  | some g =>
    leBytes 1 1 ++ leBytes 1 g.width.bits ++ [g.rights.code] ++ [g.readyMode.code] ++ leBytes 3 g.base.toNat ++
      leBytes 1 g.retries ++ leBytes 3 g.pages ++ leBytes 1 g.setup ++ leBytes 1 g.strobe ++ leBytes 1 g.hold ++
      leBytes 2 g.timeout

/-- The region snapshot: sixteen entry records, index 0 first (R101, R214). -/
def regionsBytes (t : Vector (Option Region) 16) : List Byte := t.toList.flatMap regionBytes

/-- One entry of the shadow snapshot (11.4). -/
def shadowEntryBytes (e : ShadowEntry) : List Byte :=
  leBytes 3 e.addr.toNat ++ leBytes 1 e.index.val ++ leBytes 2 e.value.toNat ++ leBytes 2 0

/-- The shadow snapshot: the header, then each entry, oldest first (R145, R214). -/
def shadowBytes (es : List ShadowEntry) : List Byte := leBytes 2 es.length ++ leBytes 14 0 ++ es.flatMap shadowEntryBytes

/-- The channel snapshot (R30, 11.4). -/
def channelBytes (ch : Channel) : List Byte :=
  let active := match ch.script with
    | some sc => if sc.tagValid then some sc else none
    | none => none
  let flags := (if active.isSome then 1 else 0) + (if ch.reserved then 2 else 0)
  let tag := match active with
    | some sc => sc.tag.toNat
    | none => 0
  let links := match ch.script with
    | some sc => sc.links.length
    | none => 0
  let executed := match ch.script with
    | some sc => sc.executed
    | none => 0
  let sqHead := match ch.rings with
    | some r => r.sqHead
    | none => 0
  let cqTail := match ch.rings with
    | some r => r.cqTail
    | none => 0
  [ch.st.code] ++ [ch.wait.code] ++ leBytes 1 flags ++ leBytes 1 links ++ leBytes 2 tag ++ leBytes 2 sqHead ++
    leBytes 2 cqTail ++ leBytes 2 0 ++ leBytes 4 executed

end Sys2Proof.Machine
end

