-- ==== Sys2Proof/Machine/Ops.lean ====
section
/-! DEFINITION. The shared operations: reading and updating the state, ring indices (08), region lookup (04), the Shadow
Store (06), raising and writing events, and asking for interrupts (09). -/

namespace Sys2Proof.Machine

/-! ## Reading and updating parts of the state -/

/-- The channels in order. -/
def allChans : List ChanId := [0, 1, 2, 3]

/-- The attention lines, or sync counters, in order. -/
def allEight : List (Fin 8) := [0, 1, 2, 3, 4, 5, 6, 7]

def State.chan (s : State) (c : ChanId) : Channel := s.chans[c]

def State.setChan (s : State) (c : ChanId) (ch : Channel) : State := { s with chans := s.chans.set c ch }

def State.modChan (s : State) (c : ChanId) (f : Channel → Channel) : State := s.setChan c (f (s.chan c))

/-- Change the active script of a channel, if it has one. -/
def State.modScript (s : State) (c : ChanId) (f : Script → Script) : State :=
  s.modChan c fun ch => { ch with script := ch.script.map f }

def State.setWait (s : State) (c : ChanId) (w : WaitReason) : State := s.modChan c fun ch => { ch with wait := w }

/-- The current step of a channel, if a script is active and a step is current. -/
def State.step? (s : State) (c : ChanId) : Option Step := (s.chan c).script.bind fun sc => sc.current

/-- Give the current step a progress. -/
def State.setProgress (s : State) (c : ChanId) (p : Progress) : State :=
  s.modScript c fun sc => { sc with current := sc.current.map fun st => { st with progress := p } }

/-- A warning joins the script's warnings; it is held once (R6). -/
def State.warn (s : State) (c : ChanId) (f : Warnings → Warnings) : State :=
  s.modScript c fun sc => { sc with warnings := f sc.warnings }

def warnShadowFull (w : Warnings) : Warnings := { w with shadowFull := true }
def warnSoftTimeout (w : Warnings) : Warnings := { w with softTimeout := true }
def warnAttnSaturated (w : Warnings) : Warnings := { w with attnSaturated := true }

def State.presentedOf (s : State) (c : ChanId) : Option Request := s.arb.presented[c]

def State.setPresented (s : State) (c : ChanId) (r : Option Request) : State :=
  { s with arb := { s.arb with presented := s.arb.presented.set c r } }

/-- The presented set holds no request (R79). -/
def State.noneP (s : State) : Bool := allChans.all fun c => (s.presentedOf c).isNone

def State.line (s : State) (n : LineId) : AttnLine := s.attn[n]
def State.setLine (s : State) (n : LineId) (l : AttnLine) : State := { s with attn := s.attn.set n l }
def State.counter (s : State) (k : CounterId) : SyncCounter := s.sync[k]
def State.setCounter (s : State) (k : CounterId) (v : SyncCounter) : State := { s with sync := s.sync.set k v }
def State.region (s : State) (i : RegionId) : Option Region := s.regions[i]
def State.setRegion (s : State) (i : RegionId) (g : Option Region) : State := { s with regions := s.regions.set i g }
def State.vector (s : State) (v : VectorId) : IntVector := s.vectors[v]
def State.setVector (s : State) (v : VectorId) (x : IntVector) : State := { s with vectors := s.vectors.set v x }

/-- A bridge reset is under way: READY is 0 and the cause is not POWER_ON (R203). -/
def State.resetting (s : State) : Bool := !s.ready && s.cause != .powerOn

/-- The bridge initialises after power-on: READY is 0 with cause POWER_ON (R203, R210). -/
def State.initialising (s : State) : Bool := !s.ready && s.cause == .powerOn

/-- The channel's access is in flight (R68). -/
def State.accessOf (s : State) (c : ChanId) : Bool :=
  match s.arb.inflight with
  | some f => f.chan == c
  | none => false

/-- Steps executed and the ordinal counter hold at their upper value (R6). -/
def counterInc (n : Nat) : Nat := if n < Config.counterMax then n + 1 else n

/-! ## Rings (R164 to R172) -/

/-- An index advanced past size - 1 becomes 0 (R164). -/
def wrapInc (size i : Nat) : Nat := if i + 1 < size then i + 1 else 0

namespace RingPair

/-- The outstanding count a tail gives (R165, R170). -/
def outstandingAt (r : RingPair) (tail : Nat) : Nat := (tail + r.sqSize - r.sqHead) % r.sqSize

/-- The outstanding count (R165). -/
def outstanding (r : RingPair) : Nat := r.outstandingAt r.sqTail

/-- The submission ring holds a record: its head differs from its tail (R3, R165). -/
def hasRecord (r : RingPair) : Bool := r.sqHead != r.sqTail

/-- A completion slot is free: unconsumed count and reservation together are below the size (R166). -/
def hasSlot (r : RingPair) (reserved : Bool) : Bool := r.unconsumed + (if reserved then 1 else 0) < r.cqSize

/-- The validity of a new SQ tail (R170). -/
def tailOk (r : RingPair) (t : Nat) : Bool := t < r.sqSize && r.outstanding ≤ r.outstandingAt t

/-- The number of records a new CQ head consumes (R171). -/
def consumes (r : RingPair) (h : Nat) : Nat := (h + r.cqSize - r.cqHead) % r.cqSize

/-- The validity of a new CQ head (R171). -/
def headOk (r : RingPair) (h : Nat) : Bool := h < r.cqSize && r.consumes h ≤ r.unconsumed

/-- A valid index write: both indices take their values and the consumed records leave the count (R169, R171). -/
def hostWrite (r : RingPair) (t h : Nat) : RingPair :=
  { r with sqTail := t, cqHead := h, unconsumed := r.unconsumed - r.consumes h }

/-- The SQ head advances past a record read with success (R165). -/
def advanceHead (r : RingPair) : RingPair := { r with sqHead := wrapInc r.sqSize r.sqHead }

/-- A record is posted: the CQ tail advances, the count rises, and the phase inverts at the wrap (R168). -/
def post (r : RingPair) : RingPair :=
  { r with cqTail := wrapInc r.cqSize r.cqTail, unconsumed := r.unconsumed + 1,
           phase := if wrapInc r.cqSize r.cqTail = 0 then !r.phase else r.phase }

/-- The host address of the record at the SQ head, in slots of 32 bytes (R164). -/
def sqSlot (r : RingPair) : HostAddr := hostAdd r.sqBase (32 * r.sqHead)

/-- The host address of the slot at the CQ tail, in slots of 16 bytes (R164, R166). -/
def cqSlot (r : RingPair) : HostAddr := hostAdd r.cqBase (16 * r.cqTail)

/-- The rings of a configured channel: indices 0, count 0, phase 1 (R18, R175). -/
def configured (sqBase : HostAddr) (sqSize : Nat) (cqBase : HostAddr) (cqSize : Nat) : RingPair :=
  { sqBase := sqBase, sqSize := sqSize, cqBase := cqBase, cqSize := cqSize, sqHead := 0, sqTail := 0, cqHead := 0,
    cqTail := 0, unconsumed := 0, phase := true }

end RingPair

/-- The admin rings at a base (R176): both of 32 slots, the completion ring behind the 1024 bytes of the other. -/
def adminRings (base : HostAddr) : RingPair :=
  RingPair.configured base Config.adminSlots (hostAdd base 1024) Config.adminSlots

/-- Change the rings of a channel, if it has them. -/
def State.modRings (s : State) (c : ChanId) (f : RingPair → RingPair) : State :=
  s.modChan c fun ch => { ch with rings := ch.rings.map f }

/-- The wait reason of a channel that is IDLE: COMPLETION_SPACE while a request waits and no slot is free (R2, R3). -/
def idleWait (ch : Channel) : WaitReason :=
  match ch.rings with
  | some r => if r.hasRecord && !r.hasSlot ch.reserved then .completionSpace else .none
  | none => .none

/-- The channel enters IDLE (R3, R16, R19). -/
def enterIdle (ch : Channel) : Channel := { ch with st := .idle, wait := idleWait { ch with st := .idle } }

/-! ## Regions (R76, R77, R89 to R92, R96) -/

namespace Region

/-- The last byte address of the window (R90). -/
def last (g : Region) : Nat := g.base.toNat + 256 * g.pages - 1

/-- The window holds the address (R90). -/
def holds (g : Region) (a : BusAddr) : Bool := g.base.toNat ≤ a.toNat && a.toNat ≤ g.last

/-- Some byte address lies in both windows (R90). -/
def overlaps (g h : Region) : Bool := g.base.toNat ≤ h.last && h.base.toNat ≤ g.last

/-- An odd address in a 16-bit window (R75, R92). -/
def misaligned (g : Region) (a : BusAddr) : Bool := g.width == .w16 && a.toNat % 2 == 1

/-- The unit of the region as a value: a byte zero-extended, or the word (R67). -/
def narrow (g : Region) (v : Value) : Value :=
  match g.width with
  | .w8 => v &&& 0x00FF
  | .w16 => v

end Region

/-- The direction of a purpose (R79): true for a write. -/
def Purpose.isWrite : Purpose → Bool
  | .write => true
  | .modifyWrite => true
  | .blockOut => true
  | .read => false
  | .modifyRead => false
  | .pollTry => false
  | .blockIn => false

/-- The rights table of R77. -/
def Rights.allows : Rights → Purpose → Bool
  | .readWrite, _ => true
  | .readOnly, p => match p with
    | .read => true
    | .pollTry => true
    | .blockIn => true
    | .modifyRead => false
    | .write => false
    | .modifyWrite => false
    | .blockOut => false
  | .writeOnly, p => p.isWrite
  | .writeOnlyShadowed, p => p.isWrite

/-- The valid entry that holds an address, with its index (R76, R91). No two valid windows overlap (R96), so the order of
the search does not matter. -/
def lookup (t : Vector (Option Region) 16) (a : BusAddr) : Option (RegionId × Region) :=
  (List.finRange 16).findSome? fun i =>
    match t[i] with
    | some g => if g.holds a then some (i, g) else none
    | none => none

/-- The lowest index, other than i, of a valid entry that a window would overlap (R96). -/
def overlapOf (t : Vector (Option Region) 16) (i : RegionId) (g : Region) : Option RegionId :=
  (List.finRange 16).find? fun j =>
    match t[j] with
    | some h => j != i && h.overlaps g
    | none => false

/-- A valid WRITE_ONLY_SHADOWED window holds the address (R38, R98). -/
def shadowedAt (t : Vector (Option Region) 16) (a : BusAddr) : Bool :=
  match lookup t a with
  | some (_, g) => g.rights == .writeOnlyShadowed
  | none => false

/-! ## The Shadow Store (06) -/

/-- The search of R135. -/
def shadowFind (es : List ShadowEntry) (a : BusAddr) : Option ShadowEntry := es.find? fun e => e.addr == a

/-- An entry for the address is held. -/
def shadowHas (es : List ShadowEntry) (a : BusAddr) : Bool := es.any fun e => e.addr == a

/-- Give an address a value: an existing entry takes it in place, and otherwise a new entry joins behind the others
(R136, R143). -/
def shadowPut (es : List ShadowEntry) (a : BusAddr) (v : Value) (i : RegionId) : List ShadowEntry :=
  if shadowHas es a then es.map fun e => if e.addr = a then { e with value := v } else e
  else es ++ [{ addr := a, value := v, index := i }]

/-- The store is full and holds no entry for the address: the result FULL of R136. -/
def shadowIsFull (es : List ShadowEntry) (a : BusAddr) : Bool :=
  !shadowHas es a && Config.shadowSize ≤ es.length

/-- Record a write that ended DONE in a shadowed window; the second part is true for FULL (R136, R137). -/
def shadowRecord (es : List ShadowEntry) (a : BusAddr) (v : Value) (i : RegionId) : List ShadowEntry × Bool :=
  if shadowIsFull es a then (es, true) else (shadowPut es a v i, false)

/-- Keep the entries that a purge does not name, and count those removed (R140). -/
def shadowPurge (es : List ShadowEntry) (keep : ShadowEntry → Bool) : List ShadowEntry × Nat :=
  (es.filter keep, es.length - (es.filter keep).length)

/-! ## Interrupts (R198) -/

/-- An ask for a vector: a masked vector sets its pending bit, an unmasked one sends its message and clears it. -/
def askVector (s : State) (v : VectorId) : State :=
  let x := s.vector v
  if x.masked then s.setVector v { x with waiting := true }
  else s.setVector v { x with waiting := false, messages := x.messages + 1 }

/-- The vector of a channel: 2 for channel 0 up to 5 for channel 3 (R15, R198). -/
def chanVector (c : ChanId) : VectorId := ⟨c.val + 2, by omega⟩

/-! ## Events (R189, R190) -/

/-- Occurrences hold at 65535 (R189). -/
def occurrencesAdd (a b : Nat) : Nat := min (a + b) Config.occurrencesMax

/-- A raise acts on the holding set: it merges into the held record of its pair, or makes a record at the back (R189). -/
def holdingRaise (h : List EventRecord) (k : EventKind) (src : Nat) (d : Detail) (now : Time) : List EventRecord :=
  if h.any (fun r => r.kind == k && r.source == src) then
    h.map fun r =>
      if r.kind = k ∧ r.source = src then { r with occurrences := occurrencesAdd r.occurrences 1, detail := d } else r
  else h ++ [{ kind := k, source := src, occurrences := 1, stamp := now, detail := d }]

/-- Start the write of the oldest held record when the conditions of R190 hold. During a bridge reset no event write is
started (R206). -/
def startEventWrite (s : State) : State :=
  let e := s.events
  if s.ready && e.size != 0 && !e.fault && e.write.isNone && e.unconsumed < e.size then
    match e.holding with
    | [] => s
    | r :: rest =>
      let w : HostWrite := { addr := hostAdd e.base (16 * e.tail), bytes := eventBytes r e.phase }
      { s with events := { e with write := some { record := r, write := w, stale := false }, holding := rest } }
  else s

/-- A raise enters the holding set (R189) and its write starts when it may (R190). -/
def raiseEvent (s : State) (k : EventKind) (src : Nat) (d : Detail) : State :=
  startEventWrite
    { s with events := { s.events with holding := holdingRaise s.events.holding k src d s.timebase } }

/-- A record whose write failed returns to the front of the holding set, merging with a held record of its pair
(R191). -/
def holdingReturn (h : List EventRecord) (r : EventRecord) : List EventRecord :=
  match h.find? fun x => x.kind == r.kind && x.source == r.source with
  | some x =>
    { r with occurrences := occurrencesAdd r.occurrences x.occurrences, detail := x.detail } ::
      h.filter fun y => !(y.kind == r.kind && y.source == r.source)
  | none => r :: h

end Sys2Proof.Machine
end

