-- ==== Sys2Proof/Machine/Waiters.lean ====
section
/-! DEFINITION. The waiter lists of the attention lines and sync counters (07): joining, release, departure, and the
examination of R158. A channel released is marked so in its step's progress; `finishReleases` in Script.lean completes
its step in the same happening. -/

namespace Sys2Proof.Machine

/-- The moment a timeout of the step runs out: the timeout in microseconds after the joining, none for a timeout of 0
(R151, R156). -/
def timeoutMoment (s : State) (t : BitVec 32) : Option Time := if t = 0 then none else some (s.timebase + t)

/-- The AWAIT or ATTEND of a channel is released from its list in this happening. -/
def markReleased (saturated : Bool) (s : State) (c : ChanId) : State := s.setProgress c (.released saturated)

/-! ## Sync counters -/

/-- The walk of R158 over a waiter list, oldest first: the value, whether a consumer ahead has been found unsatisfied,
and the list. It gives the value left, the entries that stay and the channels released, both in order. -/
def syncWalk : Nat → Bool → List SyncWaiter → Nat × List SyncWaiter × List ChanId
  | v, _, [] => (v, [], [])
  | v, held, w :: ws =>
    if w.consume then
      if !held && w.threshold ≤ v then
        let (v', stay, rel) := syncWalk (v - w.threshold) held ws
        (v', stay, w.chan :: rel)
      else
        let (v', stay, rel) := syncWalk v true ws
        (v', w :: stay, rel)
    else if w.threshold ≤ v then
      let (v', stay, rel) := syncWalk v held ws
      (v', stay, w.chan :: rel)
    else
      let (v', stay, rel) := syncWalk v held ws
      (v', w :: stay, rel)

/-- The examination of a counter's waiter list (R158). -/
def examine (s : State) (k : CounterId) : State :=
  let r := syncWalk (s.counter k).value false (s.counter k).waiters
  r.2.2.foldl (markReleased false) (s.setCounter k { value := r.1, waiters := r.2.1 })

/-- The channel leaves the counter's list without being released; a consumer's departure is followed by an examination
(R160). -/
def leaveCounter (c : ChanId) (s : State) (k : CounterId) : State :=
  match (s.counter k).waiters.find? fun w => w.chan == c with
  | none => s
  | some w =>
    let s' := s.setCounter k { s.counter k with waiters := (s.counter k).waiters.filter fun x => x.chan != c }
    if w.consume then examine s' k else s'

/-- The channel leaves every counter's list it stands on. -/
def leaveSync (s : State) (c : ChanId) : State := allEight.foldl (leaveCounter c) s

/-- An AWAIT is satisfied at its start (R60, R159). -/
def syncSatisfied (k : SyncCounter) (threshold : Nat) (consume : Bool) : Bool :=
  threshold ≤ k.value && (!consume || !(k.waiters.any fun w => w.consume))

/-! ## Attention lines -/

/-- The line is routed to WAIT (R62, R147). -/
def AttnLine.routed (l : AttnLine) : Bool := (l.mode == .edge || l.mode == .level) && l.route == .wait

/-- The channel leaves the line's list; the count and flag stay (R151). -/
def leaveLine (c : ChanId) (s : State) (n : LineId) : State :=
  s.setLine n { s.line n with waiters := (s.line n).waiters.filter fun w => w.chan != c }

/-- The channel leaves every line's list it stands on. -/
def leaveAttn (s : State) (c : ChanId) : State := allEight.foldl (leaveLine c) s

/-- Every waiter of the line is released (R150). -/
def releaseLine (s : State) (n : LineId) : State :=
  let l := s.line n
  l.waiters.foldl (fun t w => markReleased false t w.chan) (s.setLine n { l with waiters := [] })

/-- The channel stands on no list from here on (R13, R20, R25, R31). -/
def leaveLists (s : State) (c : ChanId) : State := leaveAttn (leaveSync s c) c

end Sys2Proof.Machine
end

