-- ==== Sys2Proof/Machine/Admin.lean ====
section
/-! DEFINITION. The Admin Processor's shared operations: taking a command (R178, R179), answering it (R181), waiting on
its owner (R180), its snapshot (R182), and ADMIN_FAULT (R185). -/

namespace Sys2Proof.Machine

def State.setProgressA (s : State) (p : AdminProgress) : State := { s with admin := { s.admin with progress := p } }

/-- The owner reports a command done: its admin completion write starts, with the phase of the slot (R168, R181). While
ADMIN_FAULT is set no completion is written and the command is no longer in progress (R185). -/
def adminAnswer (s : State) (id : BitVec 16) (st : AdminStatus) (d : Detail) : State :=
  if s.admin.fault then s.setProgressA .idle
  else
    s.setProgressA
      (.completing { addr := s.admin.ring.cqSlot,
                     bytes := adminCompletionBytes id st s.admin.ring.phase s.admin.ring.sqHead d })

/-- The command in progress waits for its owner (R180). -/
def adminWait (s : State) (id : BitVec 16) (on : AdminWait) : State := s.setProgressA (.waiting id on)

/-- The command in progress is the one that waits on this. -/
def adminWaitsOn (s : State) (on : AdminWait) : Bool :=
  match s.admin.progress with
  | .waiting _ on' => on' == on
  | _ => false

/-- The owner reports the waiting command done. A command a bridge reset has ended is not answered (R133, R206). -/
def adminDone (s : State) (on : AdminWait) (st : AdminStatus) (d : Detail) : State :=
  match s.admin.progress with
  | .waiting id on' => if on' = on then adminAnswer s id st d else s
  | _ => s

/-- The write of a snapshot starts (R30, R101, R145). The detail is the one its OK completion carries. -/
def adminSnapshot (s : State) (id : BitVec 16) (d : Detail) (addr : HostAddr) (bytes : List Byte) : State :=
  s.setProgressA (.snapshot id d { addr := addr, bytes := bytes })

/-- ADMIN_FAULT is set and the reservation is given up; a command in progress goes on (R185). -/
def setAdminFault (s : State) : State := { s with admin := { s.admin with fault := true, reserved := false } }

/-- The read of a command ends with success (R178): the admin SQ head advances and the command is taken, with the common
checks of R179, and its owner acts in the same happening. With no command read in flight nothing happens, and during a
bridge reset the outcome is discarded (R207). A command whose read was in flight as an index write set ADMIN_FAULT is taken
too, and then writes no completion (DEDUCED, log entry 32). -/
def takeCommand (s : State) (rec : Record32) (k : AdminCode) (act : State → BitVec 16 → State) : State :=
  match s.admin.progress with
  | .reading _ =>
    if s.ready then
      let s' := { s with admin := { s.admin with ring := s.admin.ring.advanceHead } }
      if AdminRecord.commonOk rec k then act s' (AdminRecord.id rec)
      else adminAnswer s' (AdminRecord.id rec) .invalidField 0
    else s.setProgressA .idle
  | _ => s

end Sys2Proof.Machine
end

