-- ==== Sys2Proof/Machine/Script.lean ====
section
/-! DEFINITION. The course of a script: starting and ending steps (R7, R8), the step window (R9 to R11), the end of a
script and its completion (R13, R14), the stops of a pause and an abort (R21, R25), and the next action of a step
(chapter 02). -/

namespace Sys2Proof.Machine

/-! ## The lock, as the channel asks for it (R85, R86) -/

def lockHeldBy (s : State) (c : ChanId) : Bool :=
  match s.arb.lock with
  | some (h, _) => h == c
  | none => false

/-- The lock holder becomes none and the lock timer stops (R86, R112). -/
def clearLock (s : State) : State :=
  { s with arb := { s.arb with lock := none }, own := { s.own with lockTimer := none } }

/-- The channel's lock is released, if it holds one. -/
def releaseLock (s : State) (c : ChanId) : State := if lockHeldBy s c then clearLock s else s

/-- The lock of a step is released at the step's end (R40, R86). -/
def releaseStepLock (s : State) (c : ChanId) : State := if s.arb.lock = some (c, .step) then clearLock s else s

/-! ## What is in flight for a channel -/

/-- The wait reason that names a data transfer (R2, R41). -/
def Data.reason : Data → WaitReason
  | .requestRead _ => .fetch
  | .flushRead _ => .fetch
  | .slotRead _ => .fetch
  | .readWrite _ => .hostWrite
  | .slotWrite _ => .hostWrite
  | .completion _ => .hostWrite

/-- No access and no host transfer of the channel is in flight (R21, R25, R29). -/
def quiet (s : State) (c : ChanId) : Bool :=
  !s.accessOf c && (s.chan c).data.isNone && (s.chan c).fetch.isNone

/-- The step window holds nothing: that of a script, or of no script (R6, R33). -/
def windowEmpty (ch : Channel) : Bool :=
  match ch.script with
  | some sc => sc.window.isEmpty
  | none => true

/-- The wait reason in PAUSING and ABORTING: what is in flight, and NONE otherwise (R2). The order among several things in
flight is a DESIGN CHOICE, log entry 10. -/
def stopWait (s : State) (c : ChanId) : WaitReason :=
  if s.accessOf c then .access
  else
    match (s.chan c).data with
    | some d => d.reason
    | none => if (s.chan c).fetch.isSome && windowEmpty (s.chan c) then .fetch else .none

/-- A RUNNING channel waits for a step fetch in flight: its window is empty, and no step is current (R2, R7). -/
def fetchWaits (ch : Channel) : Bool :=
  ch.fetch.isSome && windowEmpty ch &&
    match ch.script with
    | some sc => sc.current.isNone
    | none => true

/-- The wait reason of a channel during a bridge reset (R2, R206, R207): the read, access or write that it waits for is named
until it ends, COMPLETION_SPACE stands in IDLE, and the reason is NONE where the request, interval or waiter entry it named has
gone. That R2 applies so to a channel that has stopped is DEDUCED, log entry 31. -/
def resetWait (s : State) (c : ChanId) : WaitReason :=
  let ch := s.chan c
  match ch.st with
  | .pausing => stopWait s c
  | .aborting => stopWait s c
  | .running =>
    if s.accessOf c then .access
    else
      match ch.data with
      | some d => d.reason
      | none => if fetchWaits ch then .fetch else .none
  | .disabled => ch.wait
  | .stopped => ch.wait
  | .idle => ch.wait
  | .paused => ch.wait
  | .faulted => ch.wait

/-- A wait of the channel may have ended during a bridge reset (R2). -/
def waitOver (s : State) (c : ChanId) : State := s.setWait c (resetWait s c)

/-- Waits of every channel may have ended during a bridge reset (R2). -/
def waitsOver (s : State) : State :=
  { s with chans := Vector.ofFn fun c => { s.chan c with wait := resetWait s c } }

/-! ## The end of a script (R13, R14) -/

/-- The bytes of the completion of a script whose end is fixed (R14). -/
def scriptCompletion (sc : Script) (e : Ending) (r : RingPair) : List Byte :=
  completionBytes sc.tag e.status sc.warnings r.phase r.sqHead sc.executed e.ordinal e.detail

/-- The completion write starts, once no data transfer of the channel is in flight (R9, R13, R64). The wait reason is
HOST_WRITE when the channel is RUNNING, PAUSING or ABORTING (R13). -/
def startCompletion (s : State) (c : ChanId) : State :=
  let ch := s.chan c
  match ch.script, ch.rings, ch.data with
  | some sc, some r, none =>
    match sc.ending with
    | some e =>
      s.setChan c
        { ch with data := some (.completion { addr := r.cqSlot, bytes := scriptCompletion sc e r }),
                  wait := if ch.st = .running ∨ ch.st = .pausing ∨ ch.st = .aborting then .hostWrite else ch.wait }
    | none => s
  | _, _, _ => s

/-- The request presented leaves the set without an outcome (R80). -/
def withdraw (s : State) (c : ChanId) : State := s.setPresented c none

/-- The fetch in flight is to be discarded at its end (R10, R11). -/
def discardFetch (ch : Channel) : Channel := { ch with fetch := ch.fetch.map fun f => { f with discard := true } }

/-- A script ends (R13): its outcome is fixed, its lock released, its request withdrawn, its waits left, its link stack
and window cleared, and its completion write started. -/
def endScript (s : State) (c : ChanId) (st : Status) (ordinal : Nat) (d : Detail) : State :=
  let s := leaveLists (withdraw (releaseLock s c) c) c
  let s := s.modChan c fun ch => { discardFetch ch with timer := none }
  let s := s.modScript c fun sc =>
    { sc with current := none, window := [], links := [],
              ending := some { status := st, ordinal := ordinal, detail := d } }
  startCompletion s c

/-- The ordinal counter of the active script: the ordinal of the current step (R7). -/
def ordinalOf (s : State) (c : ChanId) : Nat :=
  match (s.chan c).script with
  | some sc => sc.ordinals
  | none => 0

/-- The ordinal of the current step, or one more than the ordinal counter with none current (R22, R26). -/
def ordinalNow (s : State) (c : ChanId) : Nat :=
  match (s.chan c).script with
  | some sc => if sc.current.isSome then sc.ordinals else sc.ordinals + 1
  | none => 0

/-- A step fails: the script ends with its status, its ordinal and the detail (R8). -/
def failStep (s : State) (c : ChanId) (st : Status) (d : Detail) : State := endScript s c st (ordinalOf s c) d

/-! ## Starting steps and fetches (R7, R9) -/

/-- The entry of the window bars a further fetch: a CALL, an END or a fetch fault mark (R9). -/
def Entry.barsFetch : Entry → Bool
  | .record _ bits => StepRecord.kind bits == some .call || StepRecord.kind bits == some .endStep
  | .fetchFault => true

/-- A CALL or END has started and its command is still to carry it out. Its next fetch starts within that command, from the
list position it leaves (section 1.5: no fetch stands between its start and its completion). DEDUCED, log entry 2. -/
def freshTurn : Option Step → Bool
  | some st =>
    st.progress == .fresh && (StepRecord.kind st.bits == some .call || StepRecord.kind st.bits == some .endStep)
  | none => false

/-- The conditions of R9 for a step fetch. A script whose end is fixed fetches no more (R13). -/
def mayFetch (ch : Channel) (sc : Script) : Bool :=
  ch.st == .running && sc.checked && sc.ending.isNone && sc.window.length < Config.windowSize && ch.fetch.isNone &&
    !(sc.window.any Entry.barsFetch) && !(freshTurn sc.current)

/-- A step fetch of as many records as the window has free positions (R9). -/
def startFetch (s : State) (c : ChanId) : State :=
  match (s.chan c).script with
  | some sc =>
    if mayFetch (s.chan c) sc then
      s.modChan c fun ch =>
        { ch with fetch := some { addr := sc.listPos, count := Config.windowSize - sc.window.length, discard := false } }
    else s
  | none => s

/-- The channel starts the next step of its script (R7). A step of a known kind becomes the current step, to be checked
and carried out by the command of its kind; a fetch fault mark, and a record whose kind is not one of the twelve, fail
here (R7, R35). -/
def startNext (s : State) (c : ChanId) : State :=
  match (s.chan c).script with
  | none => s
  | some sc =>
    if !sc.checked || sc.ending.isSome || sc.current.isSome then s
    else
      match sc.window with
      | [] => s.setWait c .fetch
      | e :: rest =>
        if sc.budget ≠ 0 ∧ sc.executed = sc.budget then endScript s c .stepBudget (sc.ordinals + 1) 0
        else
          let s := s.modScript c fun sc => { sc with ordinals := counterInc sc.ordinals, window := rest }
          match e with
          | .fetchFault => failStep s c .hostFault 0
          | .record addr bits =>
            match StepRecord.kind bits with
            | none => failStep s c .badStep 0
            | some _ =>
              (s.modScript c fun sc => { sc with current := some { addr := addr, bits := bits, progress := .fresh } })
                |>.setWait c .none

/-! ## Stops (R21, R25, R29) -/

/-- A PAUSING channel enters PAUSED when nothing of it is in flight, and the PAUSE_CHANNEL completes (R21). -/
def pauseCheck (s : State) (c : ChanId) : State :=
  if (s.chan c).st = .pausing then
    if quiet s c then
      adminDone (s.modChan c fun ch => { ch with st := .paused, wait := .none }) (.pause c) .ok 0
    else s.setWait c (stopWait s c)
  else s

/-- The units done of a block step, 0 for every other step (R26, R64). -/
def Progress.unitsDone : Progress → Nat
  | .blockIn d _ _ => d
  | .blockOut d _ _ => d
  | .fresh => 0
  | .write => 0
  | .read => 0
  | .readValue _ => 0
  | .modRead => 0
  | .modWrite _ _ => 0
  | .poll _ _ => 0
  | .waiting => 0
  | .released _ => 0

/-- The units done of the current step, 0 with none current. -/
def unitsDone (s : State) (c : ChanId) : Detail :=
  match s.step? c with
  | some st => BitVec.ofNat 32 st.progress.unitsDone
  | none => 0

/-- An ABORTING channel fixes ABORTED once nothing of it is in flight (R25, R26), and until then names what is (R2). -/
def abortCheck (s : State) (c : ChanId) : State :=
  match (s.chan c).st, (s.chan c).script with
  | .aborting, some sc =>
    if sc.ending.isNone && quiet s c then endScript s c .aborted (ordinalNow s c) (unitsDone s c)
    else s.setWait c (stopWait s c)
  | .aborting, none => s.setWait c (stopWait s c)
  | _, _ => s

/-- The channel is DISABLED and its rings forgotten (R29, R175). -/
def releaseChan (s : State) (c : ChanId) : State := s.setChan c Channel.reset

/-- A waiting RELEASE_CHANNEL acts once nothing of the channel is in flight (R29). -/
def releaseCheck (s : State) (c : ChanId) : State :=
  if adminWaitsOn s (.release c) && quiet s c then adminDone (releaseChan s c) (.release c) .ok 0 else s

/-- The channel goes on after one of its works has ended: it starts its next step and fetch when RUNNING, and otherwise
looks whether the stop it is in is reached. -/
def goOn (s : State) (c : ChanId) : State :=
  match (s.chan c).st with
  | .running => startFetch (startNext s c) c
  | .pausing => pauseCheck s c
  | .aborting => abortCheck s c
  | .stopped => releaseCheck s c
  | .faulted => releaseCheck s c
  | .disabled => s
  | .idle => s
  | .paused => s

/-! ## Ends of steps (R8) -/

/-- A step completes: steps executed increases, the step is no longer current, and its own lock is released (R8, R40). -/
def closeStep (s : State) (c : ChanId) : State :=
  (releaseStepLock s c).modChan c fun ch =>
    { ch with wait := .none, timer := none,
              script := ch.script.map fun sc => { sc with executed := counterInc sc.executed, current := none } }

/-- A step completes, and the channel goes on (R8). -/
def completeStep (s : State) (c : ChanId) : State := goOn (closeStep s c) c

/-- The script ends with OK, or OK_WARN when its warnings are not empty (R8). -/
def endOk (s : State) (c : ChanId) : State :=
  match (s.chan c).script with
  | some sc => endScript s c (if sc.warnings.isEmpty then .ok else .okWarn) 0 0
  | none => s

/-- The steps released from a waiter list in this happening complete (R61, R63), with ATTN_SATURATED where the
consumption gave it (R149). The next step of each is not carried out within the happening: a pause or a break that comes next
finds the channel before it (R20, R152, R161; log entry 2). -/
def finishRelease (s : State) (c : ChanId) : State :=
  match s.step? c with
  | some st =>
    match st.progress with
    | .released sat => completeStep (if sat then s.warn c warnAttnSaturated else s) c
    | _ => s
  | none => s

def finishReleases (s : State) : State := allChans.foldl finishRelease s

/-- The channel, RUNNING, has started a step that the command of its kind is still to carry out (log entry 2). -/
def startedStep (ch : Channel) : Bool :=
  ch.st == .running &&
    match ch.script with
    | some sc =>
      sc.ending.isNone &&
        match sc.current with
        | some st => st.progress == .fresh
        | none => false
    | none => false

/-- A started step is still to be carried out. Its request belongs to the happening that started it (R7 step 4, R8), so the set
does not count as empty for claim 5 of R82 until then (log entry 2). During a bridge reset no step is carried out (R33). -/
def stepDue (s : State) : Bool := s.ready && allChans.any fun c => startedStep (s.chan c)

/-! ## Presenting an access (R36, R79, R85) -/

/-- The detail of a failed access: the units done for a block step, and otherwise the unit's address (R37). -/
def accessDetail (st : Step) : Detail :=
  match st.progress with
  | .blockIn d _ _ => BitVec.ofNat 32 d
  | .blockOut d _ _ => BitVec.ofNat 32 d
  | _ => (StepRecord.addr st.bits).setWidth 32

/-- An access of the current step fails, and the step fails with its status (R37). -/
def failAccess (s : State) (c : ChanId) (st : Status) : State :=
  match s.step? c with
  | some step => failStep s c st (accessDetail step)
  | none => s

/-- The request carries a reason for a STEP lock: LOCKED, on the read half of a MODIFY or its write half when the read was
served from the store, or on the first unit of a block step (R85). -/
def stepMark (st : Step) : Bool :=
  StepRecord.locked st.bits &&
    match st.progress with
    | .modRead => true
    | .modWrite kept _ => kept.isNone
    | .blockIn d _ _ => d == 0
    | .blockOut d _ _ => d == 0
    | _ => false

/-- The lock mark of a request the channel presents (R85). -/
def lockMark (s : State) (c : ChanId) (st : Step) : Option LockKind :=
  if lockHeldBy s c then none
  else
    match (s.chan c).script with
    | some sc => if sc.lockBus then some .script else if stepMark st then some .step else none
    | none => none

/-- In RELEASED with a request presented and GNT low, the bridge asserts REQ and enters REQUESTING (R116). -/
def askBus (s : State) : State :=
  if s.own.mode = .guest ∧ s.own.state = .released ∧ s.noneP = false ∧ s.own.gnt = false then
    { s with own := { s.own with state := .requesting } }
  else s

/-- The request joins the presented set (R79). -/
def joinSet (s : State) (c : ChanId) (r : Request) : State := askBus ((s.setPresented c (some r)).setWait c .bus)

/-- The step presents a request, or it fails at once with PORT_ISOLATED (R36, R79). -/
def present (s : State) (c : ChanId) (st : Step) (p : Purpose) (a : BusAddr) (v : Option Value) : State :=
  if s.own.mode = .isolated then failAccess s c .portIsolated
  else
    joinSet s c
      { addr := a, purpose := p, value := v, mark := lockMark s c st, attempt := 1, presentedAt := s.timebase }

/-! ## The next action of a step -/

/-- How a READ or the read half of a MODIFY is made (R38): presented, or served from the Shadow Store with a value or a
failure. -/
inductive Diversion where
  | presented
  | served (v : Value)
  | failed (st : Status)
  deriving DecidableEq, Repr

/-- The decision of R38, from the Region Table as it stands. -/
def divert (s : State) (a : BusAddr) : Diversion :=
  match lookup s.regions a with
  | some (_, g) =>
    if g.rights = .writeOnlyShadowed then
      if g.misaligned a then .failed .misaligned
      else
        match shadowFind s.shadow a with
        | some e => .served (g.narrow e.value)
        | none => .failed .shadowMiss
    else .presented
  | none => .presented

/-- The value a MODIFY forms (R44): the bits of the clear-mask made 0, then those of the set-mask made 1. -/
def modified (bits : StepBits) (v : Value) : Value :=
  (v &&& ~~~(StepRecord.clearMask bits)) ||| StepRecord.setMask bits

/-- A data transfer of the channel starts, with the wait reason that names it (R41). -/
def startData (s : State) (c : ChanId) (d : Data) : State :=
  s.modChan c fun ch => { ch with data := some d, wait := d.reason }

/-- The slot of unit k of a block step (R41). R35 keeps it below the highest host address. -/
def slotAddr (bits : StepBits) (k : Nat) : HostAddr := hostAdd (StepRecord.hostAddr bits) (2 * k)

/-- The write half of a MODIFY is presented (R45, R46): with its formed value, or with none when the read was served from
the store. -/
def presentWriteHalf (s : State) (c : ChanId) (st : Step) (kept : Option Value) : State :=
  present s c st .modifyWrite (StepRecord.addr st.bits) (kept.map (modified st.bits))

/-- A wait step joins the end of a counter's list (R60, R159). -/
def joinSync (s : State) (c : ChanId) (st : Step) : State :=
  let k := StepRecord.index st.bits
  let w : SyncWaiter :=
    { chan := c, threshold := StepRecord.count st.bits, consume := StepRecord.consume st.bits,
      timeout := timeoutMoment s (StepRecord.timeout st.bits) }
  ((s.setCounter k { s.counter k with waiters := (s.counter k).waiters ++ [w] }).setProgress c .waiting).setWait c .sync

/-- An AWAIT starts its wait (R60, R159). -/
def startAwait (s : State) (c : ChanId) (st : Step) : State :=
  let k := StepRecord.index st.bits
  let threshold := StepRecord.count st.bits
  if syncSatisfied (s.counter k) threshold (StepRecord.consume st.bits) then
    completeStep
      (if StepRecord.consume st.bits then
        s.setCounter k { s.counter k with value := (s.counter k).value - threshold }
      else s) c
  else joinSync s c st

/-- A wait step joins the end of a line's list (R62, R151). -/
def joinAttn (s : State) (c : ChanId) (st : Step) : State :=
  let n := StepRecord.index st.bits
  let w : AttnWaiter := { chan := c, timeout := timeoutMoment s (StepRecord.timeout st.bits) }
  ((s.setLine n { s.line n with waiters := (s.line n).waiters ++ [w] }).setProgress c .waiting).setWait c .attention

/-- One pending assertion is consumed at the start of an ATTEND: the count decreases, and a saturated flag gives the
warning and is cleared (R62, R149). -/
def consumePending (s : State) (c : ChanId) (n : LineId) : State :=
  let l := s.line n
  let s' := s.setLine n { l with count := l.count - 1, saturated := false }
  if l.saturated then s'.warn c warnAttnSaturated else s'

/-- An ATTEND starts its wait (R62). -/
def startAttend (s : State) (c : ChanId) (st : Step) : State :=
  let n := StepRecord.index st.bits
  let l := s.line n
  if !l.routed then failStep s c .attnNotRouted 0
  else if l.mode = .edge then
    if l.count ≠ 0 then completeStep (consumePending s c n) c else joinAttn s c st
  else if l.level then completeStep s c
  else joinAttn s c st

/-- A DELAY starts its count (R58). -/
def startDelay (s : State) (c : ChanId) (st : Step) : State :=
  (s.setProgress c .waiting).modChan c fun ch =>
    { ch with timer := some (StepRecord.count st.bits), wait := .timer }

/-- The current step takes its next action in RUNNING: it presents an access, starts a host transfer, or starts its wait
(chapter 02, R24). A next address above 0xFFFFFF fails before the unit is presented (R52). -/
def act (s : State) (c : ChanId) : State :=
  match s.step? c with
  | none => s
  | some st =>
    let a := StepRecord.addr st.bits
    match st.progress with
    | .fresh => s
    | .released _ => s
    | .write => present s c st .write a (some (StepRecord.value st.bits))
    | .read =>
      match divert s a with
      | .presented => present s c st .read a none
      | .failed e => failAccess s c e
      | .served v =>
        startData (s.setProgress c (.readValue v)) c
          (.readWrite { addr := StepRecord.hostAddr st.bits, bytes := slotBytes v })
    | .readValue v => startData s c (.readWrite { addr := StepRecord.hostAddr st.bits, bytes := slotBytes v })
    | .modRead =>
      match divert s a with
      | .presented => present s c st .modifyRead a none
      | .failed e => failAccess s c e
      | .served _ =>
        presentWriteHalf (s.setProgress c (.modWrite none false)) c { st with progress := .modWrite none false } none
    | .modWrite kept _ => presentWriteHalf s c st kept
    | .poll _ _ => present s c st .pollTry a none
    | .blockIn d next none =>
      if next ≤ Config.topBusAddr then present s c st .blockIn (BitVec.ofNat 24 next) none
      else failStep s c .regionMiss (BitVec.ofNat 32 d)
    | .blockIn d _ (some v) => startData s c (.slotWrite { addr := slotAddr st.bits d, bytes := slotBytes v })
    | .blockOut d next none =>
      if next ≤ Config.topBusAddr then startData s c (.slotRead (slotAddr st.bits d))
      else failStep s c .regionMiss (BitVec.ofNat 32 d)
    | .blockOut _ next (some v) => present s c st .blockOut (BitVec.ofNat 24 next) (some v)
    | .waiting =>
      match StepRecord.kind st.bits with
      | some .delay => startDelay s c st
      | some .await => startAwait s c st
      | some .attend => startAttend s c st
      | _ => s

/-- The step goes on from a point where its next action may be stopped: it takes the action when RUNNING, and stops there
in PAUSING (R21). -/
def continueStep (s : State) (c : ChanId) : State :=
  if (s.chan c).st = .running then act s c else goOn s c

end Sys2Proof.Machine
end

