-- ==== Sys2Proof/Machine/StepKinds.lean ====
section
/-! DEFINITION. What each of the twelve step kinds does once its step is started and has passed its check (02), and the course
of the steps that the delivery of an outcome starts (R7, R8, R74). -/

namespace Sys2Proof.Machine

/-- The step takes its first action (R24 names the same point on a resume). -/
def firstAct (c : ChanId) (p : Step → Progress) (s : State) (st : Step) : State := act (s.setProgress c (p st)) c

/-- The first address of a block step's next unit (R51). -/
def firstUnit (st : Step) : Nat := (StepRecord.addr st.bits).toNat

/-- The window is cleared, a fetch in flight is to be discarded, and the script goes on at another position (R11). -/
def turnTo (s : State) (c : ChanId) (links : List HostAddr) (pos : HostAddr) : State :=
  (s.modChan c discardFetch).modScript c fun sc => { sc with window := [], links := links, listPos := pos }

/-- WRITE (R42). -/
def runWrite (c : ChanId) (s : State) (st : Step) : State := firstAct c (fun _ => .write) s st

/-- READ (R38, R43). -/
def runRead (c : ChanId) (s : State) (st : Step) : State := firstAct c (fun _ => .read) s st

/-- MODIFY (R44 to R47). -/
def runModify (c : ChanId) (s : State) (st : Step) : State := firstAct c (fun _ => .modRead) s st

/-- POLL (R48). -/
def runPoll (c : ChanId) (s : State) (st : Step) : State := firstAct c (fun st => .poll (StepRecord.tries st.bits) 0) s st

/-- BLOCK_IN (R51 to R53). -/
def runBlockIn (c : ChanId) (s : State) (st : Step) : State := firstAct c (fun st => .blockIn 0 (firstUnit st) none) s st

/-- BLOCK_OUT (R51, R52, R54). -/
def runBlockOut (c : ChanId) (s : State) (st : Step) : State := firstAct c (fun st => .blockOut 0 (firstUnit st) none) s st

/-- CALL (R56). -/
def runCall (c : ChanId) (s : State) (st : Step) : State :=
  match (s.chan c).script with
  | some sc =>
    if sc.links.length < Config.linkDepth then
      completeStep (turnTo s c (hostAdd st.addr 16 :: sc.links) (StepRecord.hostAddr st.bits)) c
    else failStep s c .linkOverflow 0
  | none => s

/-- END (R57). -/
def runEnd (c : ChanId) (s : State) (_ : Step) : State :=
  match (s.chan c).script with
  | some sc =>
    match sc.links with
    | [] => endOk (closeStep s c) c
    | pos :: rest => completeStep (turnTo s c rest pos) c
  | none => s

/-- SIGNAL (R59): the raise, the completion of the step, and the examination of the counter's waiters (R157, R158). -/
def runSignal (c : ChanId) (s : State) (st : Step) : State :=
  let k := StepRecord.index st.bits
  let sum := (s.counter k).value + StepRecord.count st.bits
  if sum ≤ Config.syncMax then
    examine (completeStep (s.setCounter k { s.counter k with value := sum }) c) k
  else failStep s c .syncOverflow 0

/-- A step of a kind, as its kind gives. -/
def runStep (c : ChanId) : StepKind → State → Step → State
  | .write => runWrite c
  | .read => runRead c
  | .modify => runModify c
  | .poll => runPoll c
  | .blockIn => runBlockIn c
  | .blockOut => runBlockOut c
  | .call => runCall c
  | .endStep => runEnd c
  | .delay => fun s st => startDelay s c st
  | .signal => runSignal c
  | .await => fun s st => startAwait s c st
  | .attend => fun s st => startAttend s c st

/-- A started step is checked and carried out (R7 step 4, R35). -/
def checked (s : State) (c : ChanId) (k : StepKind) (run : State → Step → State) (st : Step) : State :=
  if StepRecord.ok st.bits k then run s st else failStep s c .badStep 0

/-- The step that the channel has started is checked and carried out. -/
def takeStep (s : State) (c : ChanId) : State :=
  match s.step? c with
  | some st =>
    match StepRecord.kind st.bits with
    | some k => checked s c k (runStep c k) st
    | none => s
  | none => s

/-- At most so many started steps of the channel are carried out, one behind the other. -/
def carryRounds : Nat → State → ChanId → State
  | 0, s, _ => s
  | n + 1, s, c => if startedStep (s.chan c) then carryRounds n (takeStep s c) c else s

/-- The entries of the channel's step window. -/
def windowSize (s : State) (c : ChanId) : Nat :=
  match (s.chan c).script with
  | some sc => sc.window.length
  | none => 0

/-- The step that the delivery of an outcome has started is carried out within that delivery, and so is each step that its
completion starts, since what R74 puts behind the delivery finds the channel as all of them left it (log entry 2). Each step
after the first takes an entry of the window, so the rounds reach the end. -/
def carrySteps (s : State) (c : ChanId) : State := carryRounds (windowSize s c + 1) s c

end Sys2Proof.Machine
end

