-- ==== Sys2Proof/Machine/Port.lean ====
section
/-! DEFINITION. The port: issue and its checks (R75 to R77, R82 to R87), lock breaks and preemption (R112 to R115, R119),
the port modes and their changes (R107 to R110, R116 to R118, R124 to R129), and the end of an access (R74). -/

namespace Sys2Proof.Machine

/-! ## Timers of the Ownership Controller (R105) -/

/-- A timer starts with its limit; a limit of 0 starts none (R105, R111, R112, R117). -/
def startTimer (limit : Nat) : Option Nat := if limit = 0 then none else some limit

/-- The lock timer starts when a pending REQ and a held lock first hold together (R112). -/
def startLockTimer (s : State) : State :=
  if s.own.mode = .master ∧ s.own.state = .holding ∧ s.own.req = true ∧ s.arb.lock.isSome = true ∧
      s.own.lockTimer = none ∧ s.own.breakDue = false then
    { s with own := { s.own with lockTimer := startTimer s.own.params.lockLimit } }
  else s

/-! ## Ownership states -/

/-- The port enters HOLDING; in GUEST mode the hold timer starts (R105, R117). -/
def enterHolding (s : State) : State :=
  { s with own := { s.own with state := .holding, turnTimer := none, holdPassed := false,
                               holdTimer := if s.own.mode = .guest then startTimer s.own.params.holdLimit else none } }

/-- The port enters SETTLING, and with a turnaround of 0 HOLDING in the same happening (R110). -/
def enterSettling (s : State) : State :=
  if s.own.params.turnaround = 0 then enterHolding s
  else { s with own := { s.own with state := .settling, turnTimer := some s.own.params.turnaround } }

/-- GNT is asserted, the port enters GRANTED, and the lease timer starts (R108). -/
def grant (s : State) : State :=
  { s with own := { s.own with state := .granted, leaseTimer := startTimer s.own.params.leaseLimit } }

/-- The bridge drops REQ and the port enters RELEASED (R118); it asks again under R116. -/
def giveUp (s : State) : State :=
  askBus { s with own := { s.own with state := .released, holdTimer := none, turnTimer := none, holdPassed := false } }

/-! ## Changing the port mode (R125) -/

/-- A presented request fails with PORT_ISOLATED as the port enters ISOLATED (R75). -/
def isolateChan (s : State) (c : ChanId) : State :=
  match s.presentedOf c with
  | some _ => failAccess (withdraw s c) c .portIsolated
  | none => s

/-- The old mode is left: every timer of it stops, and port mode and ownership state become ISOLATED. Every request
presented then fails (R125). -/
def leaveMode (s : State) : State :=
  allChans.foldl isolateChan
    { s with own := { s.own with mode := .isolated, state := .isolated, turnTimer := none, leaseTimer := none,
                                 lockTimer := none, holdTimer := none, holdPassed := false } }

/-- A mode is entered from ISOLATED (R125). -/
def enterMode (s : State) (m : PortMode) : State :=
  let s := { s with own := { s.own with mode := m, passage := none, turnTimer := none } }
  match m with
  | .isolated => s
  | .master => if s.own.req then grant s else enterSettling s
  | .guest => askBus { s with own := { s.own with state := .released } }

/-- The end of a passage: the new mode is entered, and the SET_PORT_MODE completes (R125). -/
def endPassage (s : State) (m : PortMode) : State :=
  let s' := enterMode s m
  if s.own.answers then
    adminDone { s' with own := { s'.own with answers := false } } .portMode .ok 0
  else s'

/-- A SET_PORT_MODE acts (R125): the parameters are taken, the old mode is left and the new one entered. A switch between
MASTER and GUEST passes through ISOLATED for the new turnaround; one of 0 runs out at once, log entry 12. -/
def changeMode (s : State) (m : PortMode) (p : PortParams) : State :=
  let old := s.own.mode
  let s := { s with own := { s.own with params := p, cmd := none, changeTimer := none, passage := none } }
  match old with
  | .isolated => adminDone (enterMode s m) .portMode .ok 0
  | _ =>
    let s := leaveMode s
    match m with
    | .isolated => adminDone s .portMode .ok 0
    | _ =>
      let s := { s with own := { s.own with passage := some m, answers := true, turnTimer := startTimer p.turnaround } }
      if p.turnaround = 0 then endPassage s m else s

/-- A waiting SET_PORT_MODE finds the port in a state it may leave (R109, R119). -/
def changeIfWaiting (s : State) : Option State :=
  match s.own.cmd with
  | some (.setMode m p) => some (changeMode s m p)
  | _ => none

/-- A waiting BACKPLANE_RESET is served: the port enters PULSING with BRST asserted, the pulse timer starts and the change
timer stops (R128). -/
def startPulse (s : State) (width : Nat) : State :=
  { s with own := { s.own with state := .pulsing, pulseTimer := some width, cmd := none, changeTimer := none,
                               answers := true } }

/-! ## Issue (R75 to R77, R85) -/

/-- The value a write takes at its issue (R69): the request's, whole, so that a retry carries the same (R42, R73), or, for a
write half whose read was served from the Shadow Store, the unit formed at this issue from the store's value, with none where
the store holds no entry (R46). The lanes the region enables drive it (R67). -/
def driven (s : State) (c : ChanId) (r : Request) (g : Region) : Option Value :=
  match r.value with
  | some v => some v
  | none =>
    match shadowFind s.shadow r.addr, s.step? c with
    | some e, some st => some (g.narrow (modified st.bits (g.narrow e.value)))
    | _, _ => none

/-- The result of the checks at issue, in their order (R75): a failing status, or the entry that holds the unit with the
value the write takes. R75 gives the SHADOW_MISS of R46 no place: that it comes behind the four checks is DEDUCED, log
entry 28. -/
def checkIssue (s : State) (c : ChanId) (r : Request) : Status ⊕ (RegionId × Region × Option Value) :=
  if s.own.mode = .isolated then .inl .portIsolated
  else
    match lookup s.regions r.addr with
    | none => .inl .regionMiss
    | some (i, g) =>
      if !g.rights.allows r.purpose then .inl .regionDenied
      else if g.misaligned r.addr then .inl .misaligned
      else if r.purpose.isWrite then
        match driven s c r g with
        | some v => .inr (i, g, some v)
        | none => .inl .shadowMiss
      else .inr (i, g, none)

/-- A marked request that passes its checks takes the lock, where none is held (R85); the lock timer may start (R112). -/
def takeLock (s : State) (c : ChanId) (mark : Option LockKind) : State :=
  match mark, s.arb.lock with
  | some k, none => startLockTimer { s with arb := { s.arb with lock := some (c, k) } }
  | _, _ => s

/-- The write half of a MODIFY counts as issued (R64). -/
def markIssued (s : State) (c : ChanId) : State :=
  match s.step? c with
  | some st =>
    match st.progress with
    | .modWrite kept _ => s.setProgress c (.modWrite kept true)
    | _ => s
  | none => s

/-- The access begins: the in-flight record is made with the region's snapshot and the wait reason is ACCESS (R68, R69). -/
def beginAccess (s : State) (c : ChanId) (r : Request) (i : RegionId) (g : Region) (v : Option Value) : State :=
  let s := takeLock s c r.mark
  let f : InFlight :=
    { chan := c, addr := r.addr, purpose := r.purpose, value := v, mark := r.mark, index := i, region := g,
      attempt := r.attempt }
  (markIssued { s with arb := { s.arb with inflight := some f } } c).setWait c .access

/-- The Port Arbiter issues the channel's request (R75): it leaves the set, the channel becomes last served (R83, R84),
and it either becomes the access in flight or fails with the status of the first check it fails. -/
def issue (s : State) (c : ChanId) : State :=
  match s.presentedOf c with
  | none => s
  | some r =>
    let s := { withdraw s c with arb := { (withdraw s c).arb with lastServed := c } }
    match checkIssue s c r with
    | .inl st => failAccess s c st
    | .inr (i, g, v) => beginAccess s c r i g v

/-- The channel round robin issues next: the first after the last served that has a request (R83). -/
def nextServed (s : State) : Option ChanId :=
  [s.arb.lastServed + 1, s.arb.lastServed + 2, s.arb.lastServed + 3, s.arb.lastServed + 4].find? fun c =>
    (s.presentedOf c).isSome

/-! ## Service of the port (R82, R84) -/

/-- The port is open: HOLDING, no access in flight, and BRST released (R82, R87). -/
def portOpen (s : State) : Bool := s.own.state == .holding && s.arb.inflight.isNone && !s.own.brst

/-- The first claim that stands at an open port, acted on (R82 to R84), or none where no claim stands. Claim 5 does not stand
while a started step is still to be carried out, since its request may join the set (log entry 2). -/
def serveOne (s : State) : Option State :=
  if !portOpen s then none
  else
    match s.arb.lock with
    | some (h, _) => if (s.presentedOf h).isSome then some (issue s h) else none
    | none =>
      if s.own.mode = .master ∧ s.own.req = true then some (grant s)
      else
        match s.own.cmd with
        | some (.setMode m p) => some (changeMode s m p)
        | some (.reset w) => some (startPulse s w)
        | none =>
          if s.own.mode = .guest ∧ s.own.holdPassed = true then some (giveUp s)
          else
            match nextServed s with
            | some c => some (issue s c)
            | none => if s.own.mode = .guest ∧ stepDue s = false then some (giveUp s) else none

/-- Claims are served until none stands (R82). Each claim served empties a place of the presented set, closes the port,
or uses up the one waiting command, so eight rounds reach the end. -/
def serveRounds : Nat → State → State
  | 0, s => s
  | n + 1, s =>
    match serveOne s with
    | some s' => serveRounds n s'
    | none => s

def serve (s : State) : State := serveRounds 8 s

/-! ## Lock breaks and preemption (R64, R113 to R115, R119) -/

/-- The detail of a LOCK_BROKEN completion (R64). -/
def breakDetail (s : State) (c : ChanId) : Detail :=
  match s.step? c with
  | some st =>
    match st.progress with
    | .modWrite _ false => Config.writeNotPerformed
    | p => BitVec.ofNat 32 p.unitsDone
  | none => 0

/-- LOCK_BROKEN reaches the holder's channel (R115). In ABORTING the lock alone is released; a channel that is FAULTED
writes no completion. -/
def lockBroken (s : State) (c : ChanId) : State :=
  let ch := s.chan c
  match ch.script with
  | some sc =>
    if sc.ending.isNone && (ch.st == .running || ch.st == .pausing || ch.st == .paused) then
      endScript s c .lockBroken (ordinalNow s c) (breakDetail s c)
    else s
  | none => s

/-- A break (R114): the lock holder becomes none, its request is withdrawn, and LOCK_BROKEN goes to its channel. -/
def breakLock (s : State) : State :=
  match s.arb.lock with
  | some (h, _) => lockBroken (withdraw (clearLock s) h) h
  | none => s

/-- A preemption is taken (R119): a held lock is broken, REQ is dropped, PREEMPTED is raised and the port is RELEASED,
where a waiting SET_PORT_MODE acts (R124) and otherwise the bus is asked for again (R116). -/
def preempt (s : State) : State :=
  let s := breakLock s
  let s := { s with own := { s.own with state := .released, holdTimer := none, turnTimer := none, holdPassed := false,
                                        preemptDue := false } }
  let s := raiseEvent s .preempted 0 0
  match changeIfWaiting s with
  | some s' => s'
  | none => askBus s

/-- The breaks that waited for the end of an attempt (R74 step 3, R113, R119). A break whose lock the outcome has already
released is not taken (R113). -/
def waitingBreaks (s : State) : State :=
  let s' := if s.own.breakDue then breakLock { s with own := { s.own with breakDue := false } } else s
  if s'.own.preemptDue then preempt s' else s'

/-! ## Region changes (R97 to R99) -/

/-- What a purge after a region change keeps: entries still inside a valid WRITE_ONLY_SHADOWED window, and not those
recorded with an index whose width changed (R98). -/
def changeKeeps (t : Vector (Option Region) 16) (widthChanged : Option RegionId) (e : ShadowEntry) : Bool :=
  shadowedAt t e.addr && widthChanged != some e.index

/-- The replaced table and the index whose width changed, if any (R98, R99). -/
def changedTable (t : Vector (Option Region) 16) : RegionChange → Vector (Option Region) 16 × Option RegionId
  | .set i g =>
    (t.set i (some g),
      match t[i] with
      | some old => if old.width = g.width then none else some i
      | none => none)
  | .clear i => (t.set i none, none)

/-- A region change acts: the table and the store change in one happening (R98, R99), and the command completes with the
number of entries removed. -/
def applyRegion (s : State) (ch : RegionChange) : State :=
  let t := changedTable s.regions ch
  let p := shadowPurge s.shadow (changeKeeps t.1 t.2)
  adminDone { s with regions := t.1, shadow := p.1, regionWait := none } .region .ok (BitVec.ofNat 32 p.2)

/-- A region change that waited for the access acts (R74 step 4, R97). -/
def waitingRegion (s : State) : State :=
  match s.regionWait with
  | some ch => applyRegion s ch
  | none => s

/-! ## The end of a happening (R74, R82) -/

/-- What follows a delivery at the port once no access is in flight (R74): waiting breaks, waiting region changes, the steps
their withdrawals released, and service. R74 and R100 give the channels that a break's withdrawal releases no place: that they
complete behind the region change, and carry out their next steps later still, is a DESIGN CHOICE, log entry 35. -/
def afterDelivery (s : State) : State :=
  serve (finishReleases (waitingRegion (waitingBreaks s)))

/-- The end of a happening: the released steps complete, and where no access is in flight the port goes on in the order of R74
and serves the claims that stand (R82). -/
def settle (s : State) : State :=
  let s := finishReleases s
  if s.arb.inflight.isSome then s else afterDelivery s

/-! ## The port under a bridge reset (R88, R133, R207) -/

/-- Once no access is in flight: the lock is cleared, waiting breaks are dropped, and in GUEST mode the bridge drops REQ
with no PREEMPTED raised (R133, R207). -/
def resetPort (s : State) : State :=
  let s := clearLock s
  let s := { s with own := { s.own with breakDue := false, preemptDue := false } }
  if s.own.mode = .guest then
    { s with own := { s.own with state := .released, holdTimer := none, turnTimer := none, holdPassed := false } }
  else s

/-! ## The end of an access (R74) -/

/-- The outcomes of an access (R69). -/
inductive AccessOutcome where
  | done (v : Value)
  | failed (st : Status)
  deriving DecidableEq, Repr

/-- The shadow record of the unit that a write which ended DONE put on the lanes (R67, R74 step 1, R136); the second part is
true for FULL. -/
def recordWrite (s : State) (f : InFlight) (o : AccessOutcome) : State × Bool :=
  match o, f.value with
  | .done _, some v =>
    if f.purpose.isWrite && f.region.rights == .writeOnlyShadowed then
      let r := shadowRecord s.shadow f.addr (f.region.narrow v) f.index
      ({ s with shadow := r.1 }, r.2)
    else (s, false)
  | _, _ => (s, false)

/-- A FULL result of a write meets the script's SHADOW_STRICT flag (R39): a failure, or a warning and go on. -/
def strictFull (s : State) (c : ChanId) (full : Bool) : Bool :=
  full && match (s.chan c).script with
    | some sc => sc.shadowStrict
    | none => false

/-- The warning SHADOW_FULL, where the result was FULL (R39). -/
def warnIfFull (s : State) (c : ChanId) (full : Bool) : State := if full then s.warn c warnShadowFull else s

/-- A WRITE or the write half of a MODIFY has ended DONE (R39, R42, R46). -/
def finishWrite (s : State) (c : ChanId) (st : Step) (full : Bool) : State :=
  if strictFull s c full then failStep s c .shadowFull ((StepRecord.addr st.bits).setWidth 32)
  else completeStep (warnIfFull s c full) c

/-- The address of the unit after one at `a` in a region (R52). -/
def nextAddr (st : Step) (a : BusAddr) (g : Region) : Nat :=
  if StepRecord.fixedAddr st.bits then a.toNat else a.toNat + g.width.unit

/-- An exhausted POLL (R50). -/
def pollExhausted (s : State) (c : ChanId) (st : Step) (v : Value) : State :=
  if StepRecord.soft st.bits then completeStep (s.warn c warnSoftTimeout) c
  else failStep s c .pollTimeout (v.setWidth 32)

/-- A try of a POLL has ended DONE (R49, R50). -/
def pollTried (s : State) (c : ChanId) (st : Step) (tries : Nat) (v : Value) : State :=
  let s := s.setProgress c (.poll (tries - 1) v)
  if v &&& StepRecord.mask st.bits = StepRecord.wanted st.bits then completeStep s c
  else if tries - 1 = 0 then pollExhausted s c st v
  else if (s.chan c).st = .running then
    if StepRecord.interval st.bits = 0 then act s c
    else s.modChan c fun ch => { ch with timer := some (StepRecord.interval st.bits), wait := .timer }
  else goOn s c

/-- A unit of a BLOCK_OUT has ended DONE (R39, R54, R55). -/
def blockOutDone (s : State) (c : ChanId) (st : Step) (d : Nat) (next : Nat) (full : Bool) : State :=
  let s := s.setProgress c (.blockOut (d + 1) next none)
  if strictFull s c full then failStep s c .shadowFull (BitVec.ofNat 32 (d + 1))
  else if d + 1 = StepRecord.count st.bits then completeStep (warnIfFull s c full) c
  else continueStep (warnIfFull s c full) c

/-- The step takes the outcome DONE of its access (chapter 02). -/
def stepDone (s : State) (c : ChanId) (f : InFlight) (v : Value) (full : Bool) : State :=
  match s.step? c with
  | none => s
  | some st =>
    match st.progress with
    | .write => finishWrite s c st full
    | .read => continueStep (s.setProgress c (.readValue v)) c
    | .modRead => continueStep (s.setProgress c (.modWrite (some v) false)) c
    | .modWrite _ _ => finishWrite s c st full
    | .poll tries _ => pollTried s c st tries v
    | .blockIn d _ _ => continueStep (s.setProgress c (.blockIn d (nextAddr st f.addr f.region) (some v))) c
    | .blockOut d _ _ => blockOutDone s c st d (nextAddr st f.addr f.region) full
    | .fresh => s
    | .readValue _ => s
    | .waiting => s
    | .released _ => s

/-- The outcome goes to the channel (R74 step 2). A channel in ABORTING or FAULTED discards it; a FAULTED channel's lock is
released here (R31). -/
def deliver (s : State) (f : InFlight) (o : AccessOutcome) (full : Bool) : State :=
  let c := f.chan
  match (s.chan c).st with
  | .running => match o with
    | .done v => stepDone s c f v full
    | .failed st => failAccess s c st
  | .pausing => match o with
    | .done v => stepDone s c f v full
    | .failed st => failAccess s c st
  | .faulted => goOn (releaseLock s c) c
  | .aborting => goOn s c
  | .disabled => s
  | .stopped => goOn s c
  | .idle => s
  | .paused => s

/-- During a bridge reset the outcome is not delivered and waiting breaks are not taken: the waiting region change acts,
the lock is cleared, and the port goes on (R88, R207). -/
def afterAccessInReset (s : State) : State := serve (resetPort (waitingRegion s))

/-- The in-flight record is removed (R68, R74). -/
def removeRecord (s : State) : State := { s with arb := { s.arb with inflight := none } }

/-- An access ends with an outcome (R74). The steps that the delivery starts are carried out within it, and only then follow
the waiting breaks, the waiting region changes and the service of the port, all in the one happening. R158 gives no order
between the channel and those that a SIGNAL of it releases: that its own steps go first, and that the released ones complete then,
before the breaks, is a DESIGN CHOICE, log entry 36. -/
def endAccess (s : State) (f : InFlight) (o : AccessOutcome) : State :=
  let r := recordWrite (removeRecord s) f o
  if s.ready then settle (carrySteps (deliver r.1 f o r.2) f.chan)
  else afterAccessInReset (waitOver r.1 f.chan)

/-- A ready timeout with retries left (R73): a RUNNING channel presents the request again with the next attempt number. In
PAUSING the step stops before presentation, and otherwise the timeout is an outcome that is discarded. -/
def retryAccess (s : State) (f : InFlight) : State :=
  let s1 := removeRecord s
  if s.ready then
    match (s1.chan f.chan).st with
    | .running =>
      settle
        (joinSet s1 f.chan
          { addr := f.addr, purpose := f.purpose, value := f.value, mark := f.mark, attempt := f.attempt + 1,
            presentedAt := s1.timebase })
    | .faulted => settle (goOn (releaseLock s1 f.chan) f.chan)
    | _ => settle (goOn s1 f.chan)
  else afterAccessInReset (waitOver s1 f.chan)

/-! ## Backplane reset (R129, R130, R141, R155) -/

/-- The pending count and saturated flag of every line are cleared; waiters stay (R129, R130, R155). -/
def clearAttn (s : State) : State :=
  { s with attn := s.attn.map fun l => { l with count := 0, saturated := false } }

/-- The boards were reset: the store is emptied, the counts are cleared and BRST_RESET is raised with its source (R129,
R130). -/
def boardsReset (s : State) (src : Nat) : State :=
  raiseEvent (clearAttn { s with shadow := [] }) .brstReset src 0

/-- A reset is observed on BRST (R130): an access in flight ends with RESET_DURING_ACCESS, and the boards have lost their
values. -/
def observeReset (s : State) : State :=
  boardsReset
    (match s.arb.inflight with
     | some f => endAccess s f (.failed .resetDuringAccess)
     | none => s) 1

end Sys2Proof.Machine
end

