-- ==== Sys2Proof/Machine/AccessEnds.lean ====
section
/-! DEFINITION. What the bridge drives on the backplane lines (R65, R67, R104, R106), and the four ends of an attempt
(R69 to R73). -/

namespace Sys2Proof.Machine

/-! ## Lines the bridge drives -/

/-- The two phases of an attempt (R65). When each begins is left to the timing profile (R66). -/
inductive Phase where
  | address | data
  deriving DecidableEq, Repr

/-- The access signals; none is a line left undriven (R65, R67). -/
structure AccessSignals where
  xa : Option (BitVec 8)
  ll : Option Byte
  ul : Option Byte
  wrt : Option Bool
  astb : Option Bool
  dstb : Option Bool
  lel : Option Bool
  leu : Option Bool
  deriving DecidableEq, Repr

/-- No access in flight: every access signal is undriven (R65). -/
def signalsIdle : AccessSignals :=
  { xa := none, ll := none, ul := none, wrt := none, astb := none, dstb := none, lel := none, leu := none }

/-- The address phase (R65): XA16 to XA23 with bits 16 to 23, AD0 to AD15 with bits 0 to 15. -/
def signalsAddress (f : InFlight) : AccessSignals :=
  { xa := some (f.addr.extractLsb' 16 8), ll := some (f.addr.extractLsb' 0 8), ul := some (f.addr.extractLsb' 8 8),
    wrt := some f.purpose.isWrite, astb := some true, dstb := some false, lel := some false, leu := some false }

/-- The data phase (R65, R67): DSTB, the lane enables of the width, and for a write the value on the enabled lanes. -/
def signalsData (f : InFlight) : AccessSignals :=
  { xa := some (f.addr.extractLsb' 16 8),
    ll := f.value.map fun v => v.extractLsb' 0 8,
    ul := if f.region.width = .w16 then f.value.map fun v => v.extractLsb' 8 8 else none,
    wrt := some f.purpose.isWrite, astb := some false, dstb := some true, lel := some true,
    leu := some (f.region.width == .w16) }

/-- The access signals of a state in a phase of the attempt in progress. -/
def accessSignals (s : State) (ph : Phase) : AccessSignals :=
  match s.arb.inflight, ph with
  | some f, .address => signalsAddress f
  | some f, .data => signalsData f
  | none, _ => signalsIdle

/-- REQ as the bridge drives it: in GUEST mode alone (R104, R106). -/
def reqDriven (s : State) : Option Bool :=
  if s.own.mode = .guest then some (s.own.state == .holding || s.own.state == .settling || s.own.state == .requesting)
  else none

/-- GNT as the bridge drives it: in MASTER mode alone (R104, R106). -/
def gntDriven (s : State) : Option Bool := if s.own.mode = .master then some (s.own.state == .granted) else none

/-- The bridge asserts BRST: in PULSING alone (R106, R128). -/
def brstDriven (s : State) : Bool := s.own.state == .pulsing

/-! ## Ends of an attempt -/

/-- What an access that ends DONE returns: for a read, the enabled lanes as a value (R67). A write returns nothing. -/
def returned (f : InFlight) (lanes : Value) : Value := if f.purpose.isWrite then 0 else f.region.narrow lanes

/-- RDY is seen without BERR on an attempt in SAMPLED mode (R70). Any other RDY is ignored (R70, R71). -/
def seeReady (s : State) (lanes : Value) : State :=
  match s.arb.inflight with
  | some f => if f.region.readyMode = .sampled then endAccess s f (.done (returned f lanes)) else s
  | none => s

/-- BERR is seen on an attempt in either mode (R70, R71). -/
def seeError (s : State) : State :=
  match s.arb.inflight with
  | some f => endAccess s f (.failed .targetError)
  | none => s

/-- The ready timeout of an attempt in SAMPLED mode runs out: a retry while the attempt number is at most the retries
figure, and otherwise the outcome READY_TIMEOUT (R70, R73). -/
def readyRunsOut (s : State) : State :=
  match s.arb.inflight with
  | some f =>
    if f.region.readyMode = .sampled then
      if f.attempt ≤ f.region.retries then retryAccess s f else endAccess s f (.failed .readyTimeout)
    else s
  | none => s

/-- The strobe of an attempt in FIXED mode has run without BERR (R71). -/
def strobeRunsOut (s : State) (lanes : Value) : State :=
  match s.arb.inflight with
  | some f => if f.region.readyMode = .fixed then endAccess s f (.done (returned f lanes)) else s
  | none => s

/-- ACCESS_DONE (R70, R74). -/
def execAccessDone (lanes : Value) (s : State) : Host.Outcome State Fault Refusal := .next (seeReady s lanes)

/-- TARGET_ERROR (R70, R71, R74). -/
def execTargetError (s : State) : Host.Outcome State Fault Refusal := .next (seeError s)

/-- READY_TIMEOUT (R70, R73, R74). -/
def execReadyTimeout (s : State) : Host.Outcome State Fault Refusal := .next (readyRunsOut s)

/-- STROBE_END (R71, R74). -/
def execStrobeEnd (lanes : Value) (s : State) : Host.Outcome State Fault Refusal := .next (strobeRunsOut s lanes)

end Sys2Proof.Machine
end

