-- ==== Sys2Proof/Machine/AdminQueue.lean ====
section
/-! DEFINITION. The Admin Processor's own happenings: the start and the failure of a command read (R178), an unknown command
(R179), and the ends of its snapshot and admin completion writes (R181, R182, R185). -/

namespace Sys2Proof.Machine

/-- The conditions under which the next command's read starts (R178). -/
def mayTakeCommand (s : State) : Bool :=
  s.ready && s.enable && !s.admin.fault && s.admin.progress == .idle && s.admin.ring.hasRecord &&
    s.admin.ring.hasSlot s.admin.reserved

/-- The admin completion slot is reserved and the read of the command at the admin SQ head starts (R178). -/
def startCommandRead (s : State) : State :=
  if mayTakeCommand s then
    { s with admin := { s.admin with reserved := true, progress := .reading s.admin.ring.sqSlot } }
  else s

/-- COMMAND_READ_START (R178). -/
def execCommandReadStart (s : State) : Host.Outcome State Fault Refusal := .next (startCommandRead s)

/-- The read of a command fails: the head does not advance and ADMIN_FAULT is set (R178, R185). -/
def commandReadFails (s : State) : State :=
  match s.admin.progress with
  | .reading _ => if s.ready then (setAdminFault s).setProgressA .idle else s.setProgressA .idle
  | _ => s

/-- COMMAND_READ_FAULT (R178, R185). -/
def execCommandReadFault (s : State) : Host.Outcome State Fault Refusal := .next (commandReadFails s)

/-- A command whose code names none is taken: UNKNOWN_COMMAND with the code, and no further field examined (R179). -/
def takeUnknown (rec : Record32) (s : State) : State :=
  match s.admin.progress with
  | .reading _ =>
    if s.ready then
      adminAnswer { s with admin := { s.admin with ring := s.admin.ring.advanceHead } } (AdminRecord.id rec)
        .unknownCommand ((AdminRecord.code rec).setWidth 32)
    else s.setProgressA .idle
  | _ => s

/-- UNKNOWN_COMMAND (R179). -/
def execUnknownCommand (rec : Record32) (s : State) : Host.Outcome State Fault Refusal := .next (takeUnknown rec s)

/-- An admin completion is posted: the ring moves on, the reservation is released, and vector 0 is asked for (R168,
R181). -/
def postAdmin (s : State) : State :=
  askVector
    { s with admin := { s.admin with ring := s.admin.ring.post, reserved := false, progress := .idle } } 0

/-- The write of an admin completion ends (R181, R185). With ADMIN_FAULT set meanwhile the record is not posted. -/
def endAdminWrite (s : State) (ok : Bool) : State :=
  match s.admin.progress with
  | .completing _ =>
    if !s.ready || s.admin.fault then s.setProgressA .idle
    else if ok then postAdmin s
    else (setAdminFault s).setProgressA .idle
  | _ => s

/-- ADMIN_COMPLETION_WRITE_END (R181, R185). -/
def execAdminCompletionWriteEnd (ok : Bool) (s : State) : Host.Outcome State Fault Refusal := .next (endAdminWrite s ok)

/-- The write of a snapshot ends (R182). -/
def endSnapshot (s : State) (ok : Bool) : State :=
  match s.admin.progress with
  | .snapshot id d _ =>
    if !s.ready then s.setProgressA .idle
    else if ok then adminAnswer s id .ok d
    else adminAnswer s id .hostFault 0
  | _ => s

/-- SNAPSHOT_WRITE_END (R182). -/
def execSnapshotWriteEnd (ok : Bool) (s : State) : Host.Outcome State Fault Refusal := .next (endSnapshot s ok)

end Sys2Proof.Machine
end

