-- ==== Sys2Proof/Machine/ChannelCommands.lean ====
section
/-! DEFINITION. The admin commands that act on a channel (R17 to R30). A channel in PAUSING or ABORTING, in which no
command is taken (1.6), answers every command but QUERY_CHANNEL with BAD_STATE (log entry 20). -/

namespace Sys2Proof.Machine

/-- The checks of R17 in their order, and then the command's effect. -/
def channelCommand (rec : Record32) (k : AdminCode) (allowed : ChanState → Bool) (inRange : Bool)
    (run : ChanId → State → BitVec 16 → State) (s : State) : State :=
  takeCommand s rec k fun s id =>
    match indexOf 4 (AdminRecord.param rec 4 1) with
    | none => adminAnswer s id .invalidField 0
    | some c =>
      if !allowed (s.chan c).st then adminAnswer s id .badState ((s.chan c).st.code.setWidth 32)
      else if !inRange then adminAnswer s id .invalidField 0
      else run c s id

/-! ## CONFIGURE_CHANNEL (R18) -/

def configureAllowed : ChanState → Bool
  | .disabled => true
  | _ => false

/-- The ranges of R18. -/
def configureInRange (r : Record32) : Bool :=
  multipleOf (AdminRecord.host r 16) 64 && multipleOf (AdminRecord.host r 24) 64 &&
    ringSizeOk 4 1024 (AdminRecord.param r 6 2) && ringSizeOk 4 1024 (AdminRecord.param r 8 2) &&
    AdminRecord.param r 12 4 ≤ Config.limitMax

/-- The channel takes its rings and settings, and enters STOPPED (R18, R175). -/
def configure (r : Record32) (c : ChanId) (s : State) (id : BitVec 16) : State :=
  let rings := RingPair.configured (AdminRecord.host r 16) (AdminRecord.param r 6 2) (AdminRecord.host r 24)
    (AdminRecord.param r 8 2)
  adminAnswer
    (s.modChan c fun ch =>
      { ch with st := .stopped, rings := some rings, grantLimit := AdminRecord.param r 12 4, notifyAll := bitAt r 5 0 })
    id .ok 0

/-- CONFIGURE_CHANNEL (R18). -/
def execConfigureChannel (rec : Record32) (s : State) : Host.Outcome State Fault Refusal :=
  .next (channelCommand rec .configureChannel configureAllowed (configureInRange rec) (configure rec) s)

/-! ## START_CHANNEL (R19, R24) -/

def startAllowed : ChanState → Bool
  | .stopped => true
  | .paused => true
  | _ => false

/-- The current step resumes from where it stopped (R24). A POLL begins again with its full tries (R50), a wait step with
its full values, and every other step takes the action it stopped before. A READ or MODIFY read half whose request a pause
withdrew decides anew, from the Region Table as it stands, whether its read is diverted (DEDUCED, log entry 29). A step not
yet carried out waits for the command of its kind. -/
def resumeStep (s : State) (c : ChanId) (st : Step) : State :=
  match st.progress with
  | .poll _ _ => act (s.setProgress c (.poll (StepRecord.tries st.bits) 0)) c
  | _ => act s c

/-- The paused script resumes (R24): a step between steps starts under R7, and a fetch under R9. -/
def resume (s : State) (c : ChanId) : State :=
  let s := s.modChan c fun ch => { ch with st := .running, wait := .none }
  startFetch
    (match s.step? c with
     | some st => resumeStep s c st
     | none => startNext s c) c

/-- START_CHANNEL in STOPPED or PAUSED (R19). An end fixed with its completion write still to start is met as one with the
write in flight (DEDUCED, log entry 27). -/
def start (c : ChanId) (s : State) (id : BitVec 16) : State :=
  match (s.chan c).st, (s.chan c).script with
  | .paused, some sc =>
    if sc.ending.isSome then adminWait s id (.start c) else settle (adminAnswer (resume s c) id .ok 0)
  | _, _ => adminAnswer (s.modChan c enterIdle) id .ok 0

/-- START_CHANNEL (R19). -/
def execStartChannel (rec : Record32) (s : State) : Host.Outcome State Fault Refusal :=
  .next (channelCommand rec .startChannel startAllowed true start s)

/-! ## PAUSE_CHANNEL (R20, R21) -/

def pauseAllowed : ChanState → Bool
  | .idle => true
  | .running => true
  | .paused => true
  | _ => false

/-- A presented request is withdrawn and a wait is cut off (R20, R25): the timer stops and the lists are left. -/
def cutOff (s : State) (c : ChanId) : State :=
  leaveLists ((withdraw s c).modChan c fun ch => { ch with timer := none }) c

/-- PAUSE_CHANNEL in IDLE, RUNNING or PAUSED (R20). -/
def pause (c : ChanId) (s : State) (id : BitVec 16) : State :=
  match (s.chan c).st with
  | .running =>
    settle (pauseCheck (cutOff ((adminWait s id (.pause c)).modChan c fun ch => { ch with st := .pausing }) c) c)
  | .idle => adminAnswer (s.modChan c fun ch => { ch with st := .paused, wait := .none }) id .ok 0
  | _ => adminAnswer s id .ok 0

/-- PAUSE_CHANNEL (R20). -/
def execPauseChannel (rec : Record32) (s : State) : Host.Outcome State Fault Refusal :=
  .next (channelCommand rec .pauseChannel pauseAllowed true pause s)

/-! ## ABORT_CHANNEL (R25 to R28) -/

def abortAllowed : ChanState → Bool
  | .stopped => true
  | .idle => true
  | .running => true
  | .paused => true
  | _ => false

/-- The channel enters ABORTING with an active script (R25). -/
def startAbort (s : State) (c : ChanId) (a : Abort) : State :=
  settle (abortCheck (cutOff (s.modChan c fun ch => { ch with st := .aborting, abort := some a }) c) c)

/-- ABORT_CHANNEL in CURRENT mode (R25). A script whose end a lock break has fixed while a host transfer of its step is still
in flight (R64) has no row in R25: that the command waits as for a completion write in flight is DEDUCED, log entry 27. -/
def abortCurrent (c : ChanId) (s : State) (id : BitVec 16) : State :=
  match (s.chan c).script with
  | some sc =>
    if sc.ending.isSome then adminWait s id (.abort c)
    else startAbort (adminWait s id (.abort c)) c (.current ((s.chan c).st == .paused))
  | none => adminAnswer s id .ok 0

/-- The flush goes on (R27 steps 3 and 4): the next request is read once a slot is free, and at the boundary the channel
enters STOPPED and the command completes. -/
def flushOn (s : State) (c : ChanId) : State :=
  let ch := s.chan c
  match ch.rings, ch.abort with
  | some r, some (.flush boundary posted) =>
    if r.sqHead = boundary then
      adminDone (s.setChan c { ch with st := .stopped, wait := .none, abort := none }) (.flush c) .ok
        (BitVec.ofNat 32 posted)
    else if r.hasSlot ch.reserved then
      s.setChan c { ch with reserved := true, data := some (.flushRead r.sqSlot), wait := .fetch }
    else s.setWait c (stopWait s c)
  | _, _ => s

/-- The flush boundary: the host's SQ tail as the command is taken (R27 step 1). -/
def flushBoundary (ch : Channel) : Nat :=
  match ch.rings with
  | some r => r.sqTail
  | none => 0

/-- ABORT_CHANNEL in FLUSH mode (R27). An end fixed with its completion write still to start is met as one with the write in
flight (DEDUCED, log entry 27). -/
def abortFlush (c : ChanId) (s : State) (id : BitVec 16) : State :=
  let a := Abort.flush (flushBoundary (s.chan c)) 0
  let s := adminWait s id (.flush c)
  match (s.chan c).script with
  | some sc =>
    if sc.ending.isSome then s.modChan c fun ch => { ch with abort := some a } else startAbort s c a
  | none => flushOn (s.modChan c fun ch => { ch with st := .aborting, wait := .none, abort := some a }) c

/-- The mode byte of ABORT_CHANNEL: 0 CURRENT, 1 FLUSH (11.6). -/
def abortMode (r : Record32) : Nat := AdminRecord.param r 5 1

/-- The abort in the mode its record names. -/
def abort (r : Record32) (c : ChanId) (s : State) (id : BitVec 16) : State :=
  if abortMode r = 0 then abortCurrent c s id else abortFlush c s id

/-- ABORT_CHANNEL (R25). A record whose mode is FLUSH acts as R27 says (log entry 19). -/
def execAbortChannel (rec : Record32) (s : State) : Host.Outcome State Fault Refusal :=
  .next (channelCommand rec .abortChannel abortAllowed (abortMode rec ≤ 1) (abort rec) s)

/-- ABORT_CHANNEL_FLUSH (R27). A record whose mode is CURRENT acts as R25 says (log entry 19). -/
def execAbortChannelFlush (rec : Record32) (s : State) : Host.Outcome State Fault Refusal :=
  .next (channelCommand rec .abortChannel abortAllowed (abortMode rec ≤ 1) (abort rec) s)

/-! ## RELEASE_CHANNEL (R29) -/

def releaseAllowed : ChanState → Bool
  | .stopped => true
  | .faulted => true
  | _ => false

/-- RELEASE_CHANNEL in STOPPED or FAULTED: it acts once nothing of the channel is in flight (R29). -/
def release (c : ChanId) (s : State) (id : BitVec 16) : State := releaseCheck (adminWait s id (.release c)) c

/-- RELEASE_CHANNEL (R29). -/
def execReleaseChannel (rec : Record32) (s : State) : Host.Outcome State Fault Refusal :=
  .next (channelCommand rec .releaseChannel releaseAllowed true release s)

/-! ## QUERY_CHANNEL (R30) -/

def queryAllowed (_ : ChanState) : Bool := true

/-- The channel's values are taken now and their snapshot's write starts (R30). -/
def query (r : Record32) (c : ChanId) (s : State) (id : BitVec 16) : State :=
  adminSnapshot s id 0 (AdminRecord.host r 24) (channelBytes (s.chan c))

/-- QUERY_CHANNEL (R30). -/
def execQueryChannel (rec : Record32) (s : State) : Host.Outcome State Fault Refusal :=
  .next (channelCommand rec .queryChannel queryAllowed (multipleOf (AdminRecord.host rec 24) 16) (query rec) s)

end Sys2Proof.Machine
end

