-- ==== Sys2Proof/Machine/ChannelTransfers.lean ====
section
/-! DEFINITION. Channel faults (R31, R32), the take of a request (R3), and the ends of a channel's host transfers (R4, R5,
R10, R15, R16, R28, R41, R43, R53, R54). During a bridge reset an end is discarded (R207), and the wait for it is over (R2). -/

namespace Sys2Proof.Machine

/-! ## Channel faults -/

/-- The number of FLUSHED completions posted so far by a flush (R32). -/
def postedCount (ch : Channel) : Detail :=
  match ch.abort with
  | some (.flush _ n) => BitVec.ofNat 32 n
  | _ => 0

/-- The code of FAULTED as a detail (R32). -/
def faultedDetail : Detail := ChanState.faulted.code.setWidth 32

/-- The admin command waiting on the channel as it faults completes (R19, R25, R32). own says that the channel's own
request read or completion write failed. before is the channel as it was before the fault. -/
def answerFault (s : State) (c : ChanId) (before : Channel) (own : Bool) : State :=
  match s.admin.progress with
  | .waiting _ on =>
    if on = .start c ∨ on = .pause c then adminDone s on .badState faultedDetail
    else if on = .abort c then
      if own ∧ before.st ≠ .aborting then adminDone s on .ok 0 else adminDone s on .badState faultedDetail
    else if on = .flush c then
      if own then adminDone s on .hostFault (postedCount before) else adminDone s on .badState faultedDetail
    else s
  | _ => s

/-- A FAULTED channel: its script abandoned, its reservation given up, its transfers to be discarded (R31). -/
def faultedChan (ch : Channel) : Channel :=
  { discardFetch ch with st := .faulted, wait := .none, reserved := false, script := none, timer := none, abort := none }

/-- A fault reaches the channel (R31). One already FAULTED or DISABLED is not changed. The lock of a channel whose access
is in flight stays until the access ends. -/
def channelFault (s : State) (c : ChanId) (k : ChanFault) (own : Bool) : State :=
  let ch := s.chan c
  if ch.st = .faulted ∨ ch.st = .disabled then s
  else
    let s := leaveLists (withdraw s c) c
    let s := if s.accessOf c then s else releaseLock s c
    let s := raiseEvent (s.modChan c faultedChan) .channelFault c.val (BitVec.ofNat 32 k.code)
    answerFault s c ch own

/-! ## REQUEST_TAKE (R3) -/

/-- The script record as a request is taken (R6). -/
def Script.taken : Script :=
  { tagValid := false, tag := 0, notify := false, lockBus := false, haltOnError := false, shadowStrict := false,
    budget := 0, executed := 0, ordinals := 0, warnings := Warnings.empty, current := none, checked := false,
    listPos := 0, window := [], links := [], ending := none }

/-- The channel takes the request at the SQ head when it may (R3). -/
def takeRequest (s : State) (c : ChanId) : State :=
  let ch := s.chan c
  match ch.rings with
  | some r =>
    if s.ready ∧ ch.st = .idle ∧ r.hasRecord = true ∧ r.hasSlot ch.reserved = true then
      s.setChan c
        { ch with st := .running, wait := .fetch, reserved := true, script := some Script.taken,
                  data := some (.requestRead r.sqSlot) }
    else s
  | none => s

/-- REQUEST_TAKE (R3). -/
def execRequestTake (c : ChanId) (s : State) : Host.Outcome State Fault Refusal := .next (takeRequest s c)

/-! ## Ends of data transfers -/

/-- The data transfer in flight is over. -/
def clearData (s : State) (c : ChanId) : State := s.modChan c fun ch => { ch with data := none }

/-- The request read with success is copied into the script record (R4). -/
def copyRequest (q : Record32) (sc : Script) : Script :=
  { sc with tagValid := true, tag := RequestRecord.tag q, notify := RequestRecord.notify q,
            lockBus := RequestRecord.lockBus q, haltOnError := RequestRecord.haltOnError q,
            shadowStrict := RequestRecord.shadowStrict q, budget := (RequestRecord.budget q).toNat }

/-- The check of R5, and what follows it. -/
def checkRequest (q : Record32) (s : State) (c : ChanId) : State :=
  if RequestRecord.ok q then
    goOn (s.modScript c fun sc => { sc with checked := true, listPos := RequestRecord.listAddr q }) c
  else endScript s c .badStep 1 0

/-- The read of a request has ended with success (R4, R5, R21, R25). -/
def requestRead (q : Record32) (s : State) (c : ChanId) : State :=
  let s := (s.modRings c RingPair.advanceHead).modScript c (copyRequest q)
  if (s.chan c).st = .aborting then abortCheck s c else checkRequest q s c

/-- The read of a request ends (R4). -/
def endRequestRead (s : State) (c : ChanId) (q : Option Record32) : State :=
  match (s.chan c).data with
  | some (.requestRead _) =>
    let s := clearData s c
    if !s.ready then waitOver s c
    else
      match (s.chan c).script, q with
      | some _, some q => settle (requestRead q s c)
      | some _, none => settle (channelFault s c .requestReadFault true)
      | none, _ => settle (goOn s c)
  | _ => s

/-- REQUEST_READ_END (R4, R5). -/
def execRequestReadEnd (c : ChanId) (r : Option Record32) (s : State) : Host.Outcome State Fault Refusal :=
  .next (endRequestRead s c r)

/-- The FLUSHED completion of a request, its SQ head already past it (R28). -/
def flushedBytes (q : Record32) (r : RingPair) : List Byte :=
  completionBytes (RequestRecord.tag q) .flushed Warnings.empty r.phase r.sqHead 0 0 0

/-- The read of a request under a flush has ended with success: the SQ head advances and the FLUSHED completion is written
(R27, R28). -/
def flushRead (q : Record32) (s : State) (c : ChanId) : State :=
  let s := s.modRings c RingPair.advanceHead
  match (s.chan c).rings with
  | some r => startData s c (.completion { addr := r.cqSlot, bytes := flushedBytes q r })
  | none => s

/-- The read of a request under a flush ends (R27, R28). -/
def endFlushRead (s : State) (c : ChanId) (q : Option Record32) : State :=
  match (s.chan c).data with
  | some (.flushRead _) =>
    let s := clearData s c
    if !s.ready then waitOver s c
    else if (s.chan c).st = .aborting then
      match q with
      | some q => flushRead q s c
      | none => settle (channelFault s c .requestReadFault true)
    else settle (goOn s c)
  | _ => s

/-- FLUSH_REQUEST_READ_END (R27, R28). -/
def execFlushRequestReadEnd (c : ChanId) (r : Option Record32) (s : State) : Host.Outcome State Fault Refusal :=
  .next (endFlushRead s c r)

/-- A data transfer of the current step ends. A script whose end is fixed discards it and starts its completion (R64); in
ABORTING and FAULTED it is discarded (R25, R31). -/
def endStepData (s : State) (c : ChanId) (act : State → Step → State) : State :=
  let s := clearData s c
  if !s.ready then waitOver s c
  else
    settle
      (match (s.chan c).script with
       | some sc =>
         if sc.ending.isSome then startCompletion s c
         else if (s.chan c).st = .running ∨ (s.chan c).st = .pausing then
           match sc.current with
           | some st => act s st
           | none => s
         else goOn s c
       | none => goOn s c)

/-- The write of a READ's value ends (R41, R43). -/
def readWritten (ok : Bool) (c : ChanId) (s : State) (_ : Step) : State :=
  if ok then completeStep s c else failStep s c .hostFault 0

/-- READ_HOST_WRITE_END (R43). -/
def execReadHostWriteEnd (c : ChanId) (ok : Bool) (s : State) : Host.Outcome State Fault Refusal :=
  .next
    (match (s.chan c).data with
     | some (.readWrite _) => endStepData s c (readWritten ok c)
     | _ => s)

/-- The write of a BLOCK_IN slot ends (R53, R55). -/
def slotWritten (ok : Bool) (c : ChanId) (s : State) (st : Step) : State :=
  match st.progress with
  | .blockIn d next _ =>
    if !ok then failStep s c .hostFault (BitVec.ofNat 32 d)
    else if d + 1 = StepRecord.count st.bits then completeStep (s.setProgress c (.blockIn (d + 1) next none)) c
    else continueStep (s.setProgress c (.blockIn (d + 1) next none)) c
  | _ => s

/-- BLOCK_IN_SLOT_WRITE_END (R53). -/
def execBlockInSlotWriteEnd (c : ChanId) (ok : Bool) (s : State) : Host.Outcome State Fault Refusal :=
  .next
    (match (s.chan c).data with
     | some (.slotWrite _) => endStepData s c (slotWritten ok c)
     | _ => s)

/-- The read of a BLOCK_OUT slot ends (R54, R55). -/
def slotRead (v : Option Value) (c : ChanId) (s : State) (st : Step) : State :=
  match st.progress, v with
  | .blockOut d next _, some v => continueStep (s.setProgress c (.blockOut d next (some v))) c
  | .blockOut d _ _, none => failStep s c .hostFault (BitVec.ofNat 32 d)
  | _, _ => s

/-- BLOCK_OUT_SLOT_READ_END (R54). -/
def execBlockOutSlotReadEnd (c : ChanId) (v : Option Value) (s : State) : Host.Outcome State Fault Refusal :=
  .next
    (match (s.chan c).data with
     | some (.slotRead _) => endStepData s c (slotRead v c)
     | _ => s)

/-! ## STEP_FETCH_END (R10) -/

/-- The records of a fetch, in list order, each with the host address it was read from (R10). -/
def fetchedEntries (f : Fetch) (bits : BitVec 512) : List Entry :=
  (List.range f.count).map fun i => .record (hostAdd f.addr (16 * i)) (bits.extractLsb' (128 * i) 128)

/-- The outcome of a fetch joins the window (R10). -/
def joinWindow (f : Fetch) (r : Option (BitVec 512)) (sc : Script) : Script :=
  match r with
  | some bits =>
    { sc with window := sc.window ++ fetchedEntries f bits, listPos := hostAdd f.addr (16 * f.count) }
  | none => { sc with window := sc.window ++ [.fetchFault] }

/-- A step fetch ends (R10). Its outcome is discarded when the window was cleared meanwhile, in ABORTING (R25) and in
FAULTED (R31). -/
def endFetch (s : State) (c : ChanId) (r : Option (BitVec 512)) : State :=
  match (s.chan c).fetch with
  | some f =>
    let s := s.modChan c fun ch => { ch with fetch := none }
    if !s.ready then waitOver s c
    else
      let st := (s.chan c).st
      if !f.discard && (st == .running || st == .pausing) then settle (goOn (s.modScript c (joinWindow f r)) c)
      else settle (goOn s c)
  | none => s

/-- STEP_FETCH_END (R10). -/
def execStepFetchEnd (c : ChanId) (r : Option (BitVec 512)) (s : State) : Host.Outcome State Fault Refusal :=
  .next (endFetch s c r)

/-! ## COMPLETION_WRITE_END (R15, R16) -/

/-- The completion asks for the channel's vector (R15). -/
def asksVector (ch : Channel) (sc : Script) (e : Ending) : Bool := sc.notify || ch.notifyAll || !e.status.isOk

/-- The channel enters PAUSED with nothing to wait for (R16). -/
def enterPaused (ch : Channel) : Channel := { ch with st := .paused, wait := .none }

/-- A CURRENT abort that waited for the write completes (R25), whatever state R16 has given. -/
def answerAbort (s : State) (c : ChanId) : State := adminDone s (.abort c) .ok 0

/-- The flush goes on after the completion of the active script (R16, R27 step 2). -/
def flushNext (s : State) (c : ChanId) : State :=
  flushOn (s.modChan c fun ch => { ch with st := .aborting, wait := .none }) c

/-- The state after a script's completion is posted (R16). -/
def afterPosted (s : State) (c : ChanId) (sc : Script) (e : Ending) : State :=
  let ch := s.chan c
  match ch.st, ch.abort with
  | .running, some (.flush _ _) => flushNext s c
  | .paused, some (.flush _ _) => flushNext s c
  | .aborting, some (.flush _ _) => flushNext s c
  | .aborting, some (.current fromPaused) =>
    answerAbort (s.modChan c fun ch => { (if fromPaused then enterPaused ch else enterIdle ch) with abort := none }) c
  | .running, _ =>
    answerAbort (s.modChan c (if !e.status.isOk && sc.haltOnError then enterPaused else enterIdle)) c
  | .pausing, _ => pauseCheck s c
  | .paused, _ =>
    if adminWaitsOn s (.start c) then adminDone (s.modChan c enterIdle) (.start c) .ok 0
    else answerAbort (s.modChan c enterPaused) c
  | _, _ => s

/-- The completion of a script is posted (R15). -/
def postScript (s : State) (c : ChanId) (sc : Script) (e : Ending) : State :=
  let asks := asksVector (s.chan c) sc e
  let s := (s.modRings c RingPair.post).modChan c fun ch => { ch with reserved := false, script := none }
  afterPosted (if asks then askVector s (chanVector c) else s) c sc e

/-- A FLUSHED completion is posted (R15, R27, R28). -/
def postFlushed (s : State) (c : ChanId) : State :=
  let s := (s.modRings c RingPair.post).modChan c fun ch =>
    { ch with reserved := false,
              abort := match ch.abort with
                | some (.flush b n) => some (.flush b (n + 1))
                | a => a }
  flushNext (askVector s (chanVector c)) c

/-- The write of a completion ends (R15). In FAULTED it has no effect on the ring (R31). -/
def endCompletion (s : State) (c : ChanId) (ok : Bool) : State :=
  match (s.chan c).data with
  | some (.completion _) =>
    let s := clearData s c
    if !s.ready then waitOver s c
    else if (s.chan c).st = .faulted then goOn s c
    else if !ok then settle (channelFault s c .completionWriteFault true)
    else
      match (s.chan c).script with
      | some sc =>
        match sc.ending with
        | some e => postScript s c sc e
        | none => s
      | none => postFlushed s c
  | _ => s

/-- COMPLETION_WRITE_END (R15, R16). -/
def execCompletionWriteEnd (c : ChanId) (ok : Bool) (s : State) : Host.Outcome State Fault Refusal :=
  .next (endCompletion s c ok)

end Sys2Proof.Machine
end

