-- ==== Sys2Proof/Machine/Lines.lean ====
section
/-! DEFINITION. Changes of the backplane lines other parties drive: REQ (R107, R109), GNT (R116, R117, R119), BRST (R87,
R130) and the attention lines (R147 to R150). A line that already stands at the level gives no change (log entry 1). -/

namespace Sys2Proof.Machine

/-! ## REQ, in MASTER mode -/

/-- REQ rises (R107, R112). In other modes its level alone is followed (R106). -/
def reqRises (s : State) : State :=
  if s.own.req then s else settle (startLockTimer { s with own := { s.own with req := true } })

/-- REQ_RISE (R107). -/
def execReqRise (s : State) : Host.Outcome State Fault Refusal := .next (reqRises s)

/-- The lease ends (R109): a waiting SET_PORT_MODE acts, and otherwise the port settles. -/
def endLease (s : State) : State :=
  let s := { s with own := { s.own with leaseTimer := none } }
  match changeIfWaiting s with
  | some s' => s'
  | none => enterSettling s

/-- REQ falls (R107, R109, R112): a claim is withdrawn with its lock timer, or the lease ends. -/
def reqFalls (s : State) : State :=
  if s.own.req then
    let s := { s with own := { s.own with req := false, lockTimer := none } }
    if s.own.mode = .master ∧ s.own.state = .granted then settle (endLease s) else s
  else s

/-- REQ_FALL (R107, R109). -/
def execReqFall (s : State) : Host.Outcome State Fault Refusal := .next (reqFalls s)

/-! ## GNT, in GUEST mode -/

/-- GNT rises: the bridge has the bus when it was REQUESTING (R117). -/
def gntRises (s : State) : State :=
  if s.own.gnt then s
  else
    let s := { s with own := { s.own with gnt := true } }
    if s.own.mode = .guest ∧ s.own.state = .requesting then settle (enterSettling s) else s

/-- GNT_RISE (R117). -/
def execGntRise (s : State) : Host.Outcome State Fault Refusal := .next (gntRises s)

/-- GNT falls: a preemption in HOLDING or SETTLING, after the access in flight if there is one (R119), and in RELEASED the
owner's answer, after which the bridge may ask again (R116). -/
def gntFalls (s : State) : State :=
  if s.own.gnt then
    let s := { s with own := { s.own with gnt := false } }
    if s.own.mode = .guest then
      if s.own.state = .holding ∨ s.own.state = .settling then
        if s.arb.inflight.isSome then { s with own := { s.own with preemptDue := true } }
        else settle (preempt s)
      else askBus s
    else s
  else s

/-- GNT_FALL (R116, R119). -/
def execGntFall (s : State) : Host.Outcome State Fault Refusal := .next (gntFalls s)

/-! ## BRST -/

/-- Another party asserts BRST. It is observed at once, but while the bridge drives the line itself it is taken at the pulse's
end (R128, R129), and while the bridge initialises it is taken when that ends (R210). -/
def brstAsserted (s : State) : State :=
  if s.own.brst then s
  else
    let s := { s with own := { s.own with brst := true } }
    if s.own.state = .pulsing ∨ s.initialising = true then s else observeReset s

/-- OBSERVED_RESET (R72, R130). -/
def execObservedReset (s : State) : Host.Outcome State Fault Refusal := .next (brstAsserted s)

/-- BRST is released: a port in HOLDING is open and serves the claims that stand (R87, R130). -/
def brstReleased (s : State) : State :=
  if s.own.brst then settle { s with own := { s.own with brst := false } } else s

/-- BRST_RELEASE (R87, R130). -/
def execBrstRelease (s : State) : Host.Outcome State Fault Refusal := .next (brstReleased s)

/-! ## Attention lines -/

/-- An edge on a line configured EDGE with route WAIT: consumed by the oldest waiter, or counted, or lost (R149). -/
def countEdge (s : State) (n : LineId) : State :=
  let l := s.line n
  match l.waiters with
  | w :: ws => markReleased l.saturated (s.setLine n { l with waiters := ws, saturated := false }) w.chan
  | [] =>
    if l.count < Config.attnMax then s.setLine n { l with count := l.count + 1 }
    else s.setLine n { l with saturated := true }

/-- An assertion edge acts by the line's configuration (R147 to R150). -/
def edgeActs (s : State) (n : LineId) : State :=
  match (s.line n).mode, (s.line n).route with
  | .off, _ => s
  | .edge, .event => raiseEvent s .attention n.val 0
  | .edge, .wait => settle (countEdge s n)
  | .level, .wait => settle (releaseLine s n)
  | .level, .event => s

/-- A line changes from released to asserted. While the bridge initialises, its level alone is followed (R155, R210). -/
def lineAsserted (s : State) (n : LineId) : State :=
  if (s.line n).level then s
  else
    let s := s.setLine n { s.line n with level := true }
    if s.initialising then s else edgeActs s n

/-- ASSERTION_EDGE (R148 to R150). -/
def execAssertionEdge (n : LineId) (s : State) : Host.Outcome State Fault Refusal := .next (lineAsserted s n)

/-- ATTENTION_LINE_RELEASE (R147, R150). -/
def execAttentionLineRelease (n : LineId) (s : State) : Host.Outcome State Fault Refusal :=
  .next (s.setLine n { s.line n with level := false })

end Sys2Proof.Machine
end

