-- ==== Sys2Proof/Machine/PortCommands.lean ====
section
/-! DEFINITION. The admin commands of the Ownership Controller: SET_PORT_MODE (R122 to R126) and BACKPLANE_RESET (R127,
R128). -/

namespace Sys2Proof.Machine

/-- The four parameters a SET_PORT_MODE carries (R105, R122). -/
def paramsOf (r : Record32) : PortParams :=
  { turnaround := AdminRecord.param r 5 1, leaseLimit := AdminRecord.param r 8 4, lockLimit := AdminRecord.param r 12 4,
    holdLimit := AdminRecord.param r 16 4 }

/-- The ranges of R122, all six checked whatever the mode. -/
def portRangesOk (r : Record32) : Bool :=
  AdminRecord.param r 5 1 ≤ 15 && AdminRecord.param r 8 4 ≤ Config.limitMax && AdminRecord.param r 12 4 ≤ 65535 &&
    AdminRecord.param r 16 4 ≤ Config.limitMax && AdminRecord.param r 20 4 ≤ Config.limitMax

/-- The port is in a state from which a change of mode acts as it is taken (R124). -/
def leavesAtOnce (s : State) : Bool :=
  s.own.mode == .isolated || (s.own.mode == .guest && (s.own.state == .released || s.own.state == .requesting))

/-- A port command begins to wait; the change timer starts unless the limit is 0 (R126, R127). It is served at once at a
yield point (R82). -/
def waitPort (s : State) (cmd : PortCmd) (limit : Nat) : State :=
  settle { s with own := { s.own with cmd := some cmd, changeTimer := startTimer limit } }

/-- SET_PORT_MODE (R122 to R126). -/
def setPortMode (rec : Record32) (s : State) (id : BitVec 16) : State :=
  match portModeOf (AdminRecord.param rec 4 1) with
  | some m =>
    if !portRangesOk rec then adminAnswer s id .invalidField 0
    else if m = s.own.mode then adminAnswer { s with own := { s.own with params := paramsOf rec } } id .ok 0
    else
      let s := adminWait s id .portMode
      if leavesAtOnce s then settle (changeMode s m (paramsOf rec))
      else waitPort s (.setMode m (paramsOf rec)) (AdminRecord.param rec 20 4)
  | none => adminAnswer s id .invalidField 0

/-- SET_PORT_MODE (R122 to R126). -/
def execSetPortMode (rec : Record32) (s : State) : Host.Outcome State Fault Refusal :=
  .next (takeCommand s rec .setPortMode (setPortMode rec))

/-- The ranges of R127. -/
def pulseRangesOk (r : Record32) : Bool :=
  1 ≤ AdminRecord.param r 4 2 && AdminRecord.param r 4 2 ≤ 1000 && AdminRecord.param r 8 4 ≤ Config.limitMax

/-- BACKPLANE_RESET (R127, R128). R127 names no order of its two refusals: that the ranges are judged before the mode is
DEDUCED, log entry 30. -/
def backplaneReset (rec : Record32) (s : State) (id : BitVec 16) : State :=
  if !pulseRangesOk rec then adminAnswer s id .invalidField 0
  else if s.own.mode = .master then
    waitPort (adminWait s id .pulse) (.reset (AdminRecord.param rec 4 2)) (AdminRecord.param rec 8 4)
  else adminAnswer s id .notPermitted (BitVec.ofNat 32 s.own.mode.code)

/-- BACKPLANE_RESET (R127, R128). -/
def execBackplaneReset (rec : Record32) (s : State) : Host.Outcome State Fault Refusal :=
  .next (takeCommand s rec .backplaneReset (backplaneReset rec))

end Sys2Proof.Machine
end

