-- ==== Sys2Proof/Machine/RegionCommands.lean ====
section
/-! DEFINITION. The admin commands of the Region Table (R95 to R101). -/

namespace Sys2Proof.Machine

/-- An access in flight names the index in its record (R97). -/
def regionBusy (s : State) (i : RegionId) : Bool :=
  match s.arb.inflight with
  | some f => f.index == i
  | none => false

/-- The index a region change is for. -/
def RegionChange.index : RegionChange → RegionId
  | .set i _ => i
  | .clear i => i

/-- A checked region change acts at once, or waits for the access in flight on its index (R97). -/
def changeRegion (s : State) (id : BitVec 16) (ch : RegionChange) : State :=
  let s := adminWait s id .region
  if regionBusy s ch.index then { s with regionWait := some ch } else applyRegion s ch

/-- SET_REGION (R95, R96, R98). -/
def setRegion (rec : Record32) (s : State) (id : BitVec 16) : State :=
  match indexOf 16 (AdminRecord.param rec 4 1), regionOf rec with
  | some i, some g =>
    match overlapOf s.regions i g with
    | some j => adminAnswer s id .overlap (BitVec.ofNat 32 j.val)
    | none => changeRegion s id (.set i g)
  | _, _ => adminAnswer s id .invalidField 0

/-- SET_REGION (R95 to R98). -/
def execSetRegion (rec : Record32) (s : State) : Host.Outcome State Fault Refusal :=
  .next (takeCommand s rec .setRegion (setRegion rec))

/-- CLEAR_REGION (R99). -/
def clearRegion (rec : Record32) (s : State) (id : BitVec 16) : State :=
  match indexOf 16 (AdminRecord.param rec 4 1) with
  | some i => if (s.region i).isSome then changeRegion s id (.clear i) else adminAnswer s id .ok 0
  | none => adminAnswer s id .invalidField 0

/-- CLEAR_REGION (R99). -/
def execClearRegion (rec : Record32) (s : State) : Host.Outcome State Fault Refusal :=
  .next (takeCommand s rec .clearRegion (clearRegion rec))

/-- QUERY_REGIONS (R101). -/
def queryRegions (rec : Record32) (s : State) (id : BitVec 16) : State :=
  if multipleOf (AdminRecord.host rec 24) 16 then
    adminSnapshot s id 0 (AdminRecord.host rec 24) (regionsBytes s.regions)
  else adminAnswer s id .invalidField 0

/-- QUERY_REGIONS (R101). -/
def execQueryRegions (rec : Record32) (s : State) : Host.Outcome State Fault Refusal :=
  .next (takeCommand s rec .queryRegions (queryRegions rec))

end Sys2Proof.Machine
end

