-- ==== Sys2Proof/Machine/Registers.lean ====
section
/-! DEFINITION. The register window: what a write of each register does, and what a read returns (R169 to R173, R184, R192,
R199 to R205, R215). While READY is 0 no write has an effect (R201). -/

namespace Sys2Proof.Machine

/-! ## CONTROL, ADMIN_BASE and INTR -/

/-- A write of CONTROL with RESET 0 (R202). -/
def execEnable (value : Bool) (s : State) : Host.Outcome State Fault Refusal :=
  .next (if s.ready then { s with enable := value } else s)

/-- The base a write gives, over the base held. The bits below 4096 are not kept (R176, R204). -/
def baseAfter (old : BitVec 64) : BaseWrite → BitVec 64
  | .full v => v &&& ~~~0xFFF
  | .low v => (old.extractLsb' 32 32 ++ v) &&& ~~~0xFFF
  | .high v => (v ++ old.extractLsb' 0 32) &&& ~~~0xFFF

/-- A write of ADMIN_BASE is taken (R176, R204). -/
def baseTaken (s : State) : Bool := s.ready && !s.enable && s.admin.progress == .idle && !s.admin.fault

/-- ADMIN_BASE (R176, R204). -/
def execAdminBase (w : BaseWrite) (s : State) : Host.Outcome State Fault Refusal :=
  .next
    (if baseTaken s then { s with admin := { s.admin with ring := adminRings (baseAfter s.admin.ring.sqBase w) } } else s)

/-- A vector takes its mask bit, and one left unmasked with its pending bit set sends its message (R199). -/
def maskVector (x : IntVector) (m : Bool) : IntVector :=
  if !m && x.waiting then { masked := false, waiting := false, messages := x.messages + 1 } else { x with masked := m }

/-- INTR (R199): bit k of the word is the mask of vector k. -/
def execIntr (word : BitVec 32) (s : State) : Host.Outcome State Fault Refusal :=
  .next
    (if s.ready then { s with vectors := Vector.ofFn fun k : VectorId => maskVector (s.vector k) (word.getLsbD k.val) }
     else s)

/-! ## The QUEUE_INDEX registers -/

/-- The SQ tail a word carries: bits 0 to 15 (R215). -/
def wordTail (w : BitVec 32) : Nat := (w.extractLsb' 0 16).toNat

/-- The CQ head, or event head, a word carries: bits 16 to 31 (R215). -/
def wordHead (w : BitVec 32) : Nat := (w.extractLsb' 16 16).toNat

/-- The fault an index write raises, the SQ tail judged first (R172). -/
def indexFault (r : RingPair) (t h : Nat) : Option ChanFault :=
  if !r.tailOk t then some .sqTailInvalid else if !r.headOk h then some .cqHeadInvalid else none

/-- A flush waits for a free slot (R27). -/
def flushWaits (ch : Channel) : Bool :=
  ch.st == .aborting && ch.script.isNone && ch.data.isNone &&
    match ch.abort with
    | some (.flush _ _) => true
    | _ => false

/-- What a valid index write brings about at the channel (R173): an IDLE channel sets its wait reason anew, and a flush that
waits for a slot goes on. -/
def afterIndexWrite (s : State) (c : ChanId) : State :=
  if (s.chan c).st = .idle then s.modChan c enterIdle
  else if flushWaits (s.chan c) then flushOn s c
  else s

/-- A write of a channel's QUEUE_INDEX register (R169 to R173). -/
def writeIndices (s : State) (c : ChanId) (t h : Nat) : State :=
  match (s.chan c).rings with
  | some r =>
    match indexFault r t h with
    | some k => settle (channelFault s c k false)
    | none => afterIndexWrite (s.modRings c fun r => r.hostWrite t h) c
  | none => s

/-- CHANNEL_QUEUE_INDEX_WRITE (R169 to R173). -/
def execChannelQueueIndexWrite (c : ChanId) (word : BitVec 32) (s : State) : Host.Outcome State Fault Refusal :=
  .next (if s.ready then writeIndices s c (wordTail word) (wordHead word) else s)

/-- A write of the admin QUEUE_INDEX register (R184). -/
def writeAdminIndices (s : State) (t h : Nat) : State :=
  if s.admin.fault then s
  else if s.admin.ring.tailOk t && s.admin.ring.headOk h then
    { s with admin := { s.admin with ring := s.admin.ring.hostWrite t h } }
  else setAdminFault s

/-- ADMIN_QUEUE_INDEX_WRITE (R184, R185). -/
def execAdminQueueIndexWrite (word : BitVec 32) (s : State) : Host.Outcome State Fault Refusal :=
  .next (if s.ready then writeAdminIndices s (wordTail word) (wordHead word) else s)

/-- The number of records a new event head consumes (R192). -/
def eventConsumes (e : EventUnit) (h : Nat) : Nat := (h + e.size - e.head) % e.size

/-- A write of the event head (R192). -/
def writeEventHead (s : State) (h : Nat) : State :=
  let e := s.events
  if e.size = 0 ∨ e.fault = true then s
  else if h < e.size ∧ eventConsumes e h ≤ e.unconsumed then
    startEventWrite { s with events := { e with head := h, unconsumed := e.unconsumed - eventConsumes e h } }
  else { s with events := { e with fault := true } }

/-- EVENT_QUEUE_INDEX_WRITE (R192). -/
def execEventQueueIndexWrite (word : BitVec 32) (s : State) : Host.Outcome State Fault Refusal :=
  .next (if s.ready then writeEventHead s (wordHead word) else s)

/-- NO_REGISTER_WRITE: a write of STATUS, of an offset that holds no register, narrower than 32 bits, unaligned or across
two registers has no effect (R201, R203, R215). -/
def execNoRegisterWrite (_offset _size : Nat) (_value : BitVec 64) (s : State) : Host.Outcome State Fault Refusal :=
  .next s

/-! ## Reads -/

/-- Two 16-bit indices as one word. -/
def indexWord (lo hi : Nat) : BitVec 32 := BitVec.ofNat 16 hi ++ BitVec.ofNat 16 lo

/-- CONTROL as it reads (R202). -/
def controlWord (s : State) : BitVec 32 := if s.enable then 1 else 0

/-- STATUS as it reads (R203, R215). -/
def statusWord (s : State) : BitVec 32 :=
  (if s.ready then 1 else 0) ||| (s.cause.code.setWidth 32 <<< 4) ||| (if s.admin.fault then 0x100 else 0) |||
    (if s.events.fault then 0x200 else 0)

/-- INTR as it reads (R199, R215). -/
def intrWord (s : State) : BitVec 32 :=
  (List.finRange 6).foldl
    (fun w v =>
      w ||| (if (s.vector v).masked then BitVec.ofNat 32 (2 ^ v.val) else 0) |||
        (if (s.vector v).waiting then BitVec.ofNat 32 (2 ^ (16 + v.val)) else 0))
    0

/-- A channel's QUEUE_INDEX register as it reads: 0 while the channel is DISABLED (R172, R205). -/
def channelWord (s : State) (c : ChanId) : BitVec 32 :=
  match (s.chan c).rings with
  | some r => indexWord r.sqHead r.cqTail
  | none => 0

/-- The 32-bit register at an aligned offset, 0 where there is none (R201, R215). -/
def registerWord (s : State) (off : Nat) : BitVec 32 :=
  match off with
  | 0x00 => controlWord s
  | 0x04 => statusWord s
  | 0x08 => s.admin.ring.sqBase.extractLsb' 0 32
  | 0x0C => s.admin.ring.sqBase.extractLsb' 32 32
  | 0x10 => intrWord s
  | 0x20 => indexWord s.admin.ring.sqHead s.admin.ring.cqTail
  | 0x24 => indexWord 0 (if s.events.size = 0 then 0 else s.events.tail)
  | 0x28 => channelWord s 0
  | 0x2C => channelWord s 1
  | 0x30 => channelWord s 2
  | 0x34 => channelWord s 3
  | _ => 0

/-- The register as it reads: while READY is 0 every register but STATUS reads 0 (R201). -/
def visibleWord (s : State) (off : Nat) : BitVec 32 := if s.ready || off == 0x04 then registerWord s off else 0

/-- A read of 1, 2, 4 or 8 bytes of the window (R201, R204, R215). A read that is not aligned to its width, or that spans two
registers, returns 0; 8 bytes at 0x08 are ADMIN_BASE. A read of 8 bytes at 0x10, over INTR and the empty offset behind it,
is neither; R215 gives it no outcome, and here it returns 0 (DESIGN CHOICE, log entry 33). R215 names no width below 32 bits:
that a read of 3 bytes, or of any size but these four, returns 0 is a DESIGN CHOICE, log entry 34. -/
def readRegister (s : State) (off size : Nat) : BitVec 64 :=
  if size = 8 ∧ off = 0x08 then visibleWord s 0x0C ++ visibleWord s 0x08
  else if (size = 1 ∨ size = 2 ∨ size = 4) ∧ off % size = 0 then
    ((visibleWord s (off - off % 4)).extractLsb' (8 * (off % 4)) (8 * size)).setWidth 64
  else 0

end Sys2Proof.Machine
end

