-- ==== Sys2Proof/Machine/Resets.lean ====
section
/-! DEFINITION. Power-on (R210), the bridge reset and the link hot reset (R206 to R209). -/

namespace Sys2Proof.Machine

/-! ## Bridge reset -/

/-- A waiting admin command is no longer in progress; a transfer of the Admin Processor runs on to its end (R206, R207). -/
def abandonWait : AdminProgress → AdminProgress
  | .waiting _ _ => .idle
  | p => p

/-- Channels stop, requests leave the set, waiters leave the lists, and waiting port commands are abandoned (R133, R206). A
wait that this takes away has ended (R2). -/
def stopAll (s : State) : State :=
  waitsOver
    { s with admin := { s.admin with progress := abandonWait s.admin.progress },
             chans := s.chans.map fun ch => { ch with timer := none },
             arb := { s.arb with presented := Vector.replicate 4 none },
             attn := s.attn.map fun l => { l with waiters := [] },
             sync := s.sync.map fun k => { k with waiters := [] },
             own := { s.own with cmd := none, changeTimer := none, answers := false } }

/-- A bridge reset starts (R206). With no access in flight the lock is cleared and the GUEST release made at once (R207). -/
def startReset (s : State) (cause : ResetCause) : State :=
  let s := { stopAll s with ready := false, cause := cause }
  if s.arb.inflight.isSome then s else afterAccessInReset s

/-- BRIDGE_RESET: a write of CONTROL with RESET 1 while READY is 1 (R202, R206, R209). The ENABLE value is not taken. -/
def execBridgeReset (_enable : Bool) (s : State) : Host.Outcome State Fault Refusal :=
  .next (if s.ready then startReset s .hostRequest else s)

/-- The Admin Processor's transfer in flight ends at once. -/
def dropAdminTransfer : AdminProgress → AdminProgress
  | .reading _ => .idle
  | .snapshot _ _ _ => .idle
  | .completing _ => .idle
  | p => p

/-- Every host transfer and interrupt message in flight ends as a host fault, its outcome discarded (R207), and the wait for it
too (R2). -/
def endTransfers (s : State) : State :=
  waitsOver
    { s with admin := { s.admin with progress := dropAdminTransfer s.admin.progress },
             chans := s.chans.map fun ch => { ch with data := none, fetch := none },
             events := { s.events with write := none },
             vectors := s.vectors.map fun v => { v with messages := 0 } }

/-- A bridge reset that a link hot reset starts. One that ends the power-on initialisation observes a BRST that stands
asserted, as R132 asks of every assertion from power-on (DEDUCED, log entry 21). -/
def startLinkReset (s : State) : State :=
  if s.initialising ∧ s.own.brst = true then observeReset (startReset s .linkReset) else startReset s .linkReset

/-- LINK_HOT_RESET (R206, R207, R209): it starts a bridge reset, or joins the one under way. -/
def execLinkHotReset (s : State) : Host.Outcome State Fault Refusal :=
  .next (endTransfers (if s.resetting then { s with cause := .linkReset } else startLinkReset s))

/-- The Admin Processor has a transfer in flight. -/
def adminTransfer : AdminProgress → Bool
  | .reading _ => true
  | .snapshot _ _ _ => true
  | .completing _ => true
  | .idle => false
  | .waiting _ _ => false

/-- No backplane access, host transfer or interrupt message is in flight (R208). -/
def nothingInFlight (s : State) : Bool :=
  s.arb.inflight.isNone && !adminTransfer s.admin.progress &&
    (allChans.all fun c => (s.chan c).data.isNone && (s.chan c).fetch.isNone) && s.events.write.isNone &&
    (List.finRange 6).all fun v => (s.vector v).messages == 0

/-- The values of R208. -/
def resetValues (s : State) : State :=
  { s with ready := true, enable := false, timebase := 0, admin := Admin.reset,
           chans := Vector.replicate 4 Channel.reset, arb := Arbiter.reset,
           attn := s.attn.map fun l => { l with waiters := [] },
           sync := Vector.replicate 8 SyncCounter.reset, events := EventUnit.reset,
           vectors := Vector.replicate 6 IntVector.reset }

/-- BRIDGE_RESET_COMPLETE (R208). -/
def execBridgeResetComplete (s : State) : Host.Outcome State Fault Refusal :=
  .next (if s.resetting && nothingInFlight s then resetValues s else s)

/-! ## Power-on -/

/-- The levels other parties drive are not the bridge's to reset: REQ, GNT, BRST and the attention lines stand as they are
(R155, R210). -/
def keepLevels (s t : State) : State :=
  { t with pending := s.pending,
           own := { t.own with req := s.own.req, gnt := s.own.gnt, brst := s.own.brst },
           attn := Vector.ofFn fun n : LineId => { t.line n with level := (s.line n).level } }

/-- POWER_ON: every block takes its power-on value and the bridge initialises with READY 0 (R210). -/
def execPowerOn (s : State) : Host.Outcome State Fault Refusal := .next (keepLevels s State.reset)

/-- POWER_ON_INITIALISATION_END (R210): READY becomes 1, and a BRST that another party asserts is observed (R130, R132). -/
def execPowerOnInitialisationEnd (s : State) : Host.Outcome State Fault Refusal :=
  .next
    (if s.initialising then
      let s := { s with ready := true, timebase := 0 }
      if s.own.brst then observeReset s else s
    else s)

end Sys2Proof.Machine
end

