-- ==== Sys2Proof/Machine/ShadowCommands.lean ====
section
/-! DEFINITION. The admin commands of the Shadow Store (R142 to R145). -/

namespace Sys2Proof.Machine

/-- The window a SEED_SHADOW names, once its first three checks have passed (R142). A value above 0xFFFF is refused like
one above 0xFF in an 8-bit window (DEDUCED from the range R142 gives the value, log entry 11). -/
def seedWindow (s : State) (addr value : Nat) : Option RegionId :=
  if addr ≤ Config.topBusAddr then
    match lookup s.regions (BitVec.ofNat 24 addr) with
    | some (i, g) =>
      if g.rights = .writeOnlyShadowed ∧ g.misaligned (BitVec.ofNat 24 addr) = false ∧ value ≤ 0xFFFF ∧
          (g.width = .w8 → value ≤ 0xFF) then some i
      else none
    | none => none
  else none

/-- SEED_SHADOW (R142, R143). -/
def seedShadow (rec : Record32) (s : State) (id : BitVec 16) : State :=
  let addr := AdminRecord.param rec 8 4
  let value := AdminRecord.param rec 12 4
  match seedWindow s addr value with
  | none => adminAnswer s id .invalidField 0
  | some i =>
    let a : BusAddr := BitVec.ofNat 24 addr
    if shadowIsFull s.shadow a then adminAnswer s id .noSpace (BitVec.ofNat 32 Config.shadowSize)
    else
      let es := shadowPut s.shadow a (BitVec.ofNat 16 value) i
      adminAnswer { s with shadow := es } id .ok (BitVec.ofNat 32 es.length)

/-- SEED_SHADOW (R142, R143). -/
def execSeedShadow (rec : Record32) (s : State) : Host.Outcome State Fault Refusal :=
  .next (takeCommand s rec .seedShadow (seedShadow rec))

/-- The entries a purge keeps are those for which `keep` holds; the command reports the number removed (R140, R144). -/
def purgeWith (s : State) (id : BitVec 16) (keep : ShadowEntry → Bool) : State :=
  let p := shadowPurge s.shadow keep
  adminAnswer { s with shadow := p.1 } id .ok (BitVec.ofNat 32 p.2)

/-- The address of an entry lies in a range (R144). -/
def inRange (first last : Nat) (e : ShadowEntry) : Bool := first ≤ e.addr.toNat && e.addr.toNat ≤ last

/-- PURGE_SHADOW (R144): scope 0 is ALL, scope 1 is RANGE (11.6). -/
def purgeShadow (rec : Record32) (s : State) (id : BitVec 16) : State :=
  let first := AdminRecord.param rec 8 4
  let last := AdminRecord.param rec 12 4
  if AdminRecord.param rec 4 1 = 0 then purgeWith s id fun _ => false
  else if AdminRecord.param rec 4 1 = 1 ∧ first ≤ last ∧ last ≤ Config.topBusAddr then
    purgeWith s id fun e => !inRange first last e
  else adminAnswer s id .invalidField 0

/-- PURGE_SHADOW (R144). -/
def execPurgeShadow (rec : Record32) (s : State) : Host.Outcome State Fault Refusal :=
  .next (takeCommand s rec .purgeShadow (purgeShadow rec))

/-- QUERY_SHADOW (R145). -/
def queryShadow (rec : Record32) (s : State) (id : BitVec 16) : State :=
  if multipleOf (AdminRecord.host rec 24) 16 then
    adminSnapshot s id (BitVec.ofNat 32 s.shadow.length) (AdminRecord.host rec 24) (shadowBytes s.shadow)
  else adminAnswer s id .invalidField 0

/-- QUERY_SHADOW (R145). -/
def execQueryShadow (rec : Record32) (s : State) : Host.Outcome State Fault Refusal :=
  .next (takeCommand s rec .queryShadow (queryShadow rec))

end Sys2Proof.Machine
end

