-- ==== Sys2Proof/Machine/Steps.lean ====
section
/-! DEFINITION. The commands of the twelve step kinds: each checks the step its channel has started and carries it out (R7,
R35). A command whose step is not the one started has no effect (log entries 1 and 2). -/

namespace Sys2Proof.Machine

/-- The step of this kind that the channel, RUNNING, has started under R7 and not yet carried out. -/
def started (s : State) (c : ChanId) (k : StepKind) : Option Step :=
  if s.ready ∧ (s.chan c).st = .running then
    match s.step? c with
    | some st => if st.progress = .fresh ∧ StepRecord.kind st.bits = some k then some st else none
    | none => none
  else none

/-- The step is checked (R35) and carried out, and the happening ends. -/
def carryOut (s : State) (c : ChanId) (k : StepKind) (run : State → Step → State) : State :=
  match started s c k with
  | some st => settle (checked s c k run st)
  | none => s

/-- WRITE (R42). -/
def execWrite (c : ChanId) (s : State) : Host.Outcome State Fault Refusal :=
  .next (carryOut s c .write (runWrite c))

/-- READ (R38, R43). -/
def execRead (c : ChanId) (s : State) : Host.Outcome State Fault Refusal :=
  .next (carryOut s c .read (runRead c))

/-- MODIFY (R44 to R47). -/
def execModify (c : ChanId) (s : State) : Host.Outcome State Fault Refusal :=
  .next (carryOut s c .modify (runModify c))

/-- POLL (R48). -/
def execPoll (c : ChanId) (s : State) : Host.Outcome State Fault Refusal :=
  .next (carryOut s c .poll (runPoll c))

/-- BLOCK_IN (R51 to R53). -/
def execBlockIn (c : ChanId) (s : State) : Host.Outcome State Fault Refusal :=
  .next (carryOut s c .blockIn (runBlockIn c))

/-- BLOCK_OUT (R51, R52, R54). -/
def execBlockOut (c : ChanId) (s : State) : Host.Outcome State Fault Refusal :=
  .next (carryOut s c .blockOut (runBlockOut c))

/-- CALL (R56). -/
def execCall (c : ChanId) (s : State) : Host.Outcome State Fault Refusal := .next (carryOut s c .call (runCall c))

/-- END (R57). -/
def execEndStep (c : ChanId) (s : State) : Host.Outcome State Fault Refusal := .next (carryOut s c .endStep (runEnd c))

/-- DELAY (R58). -/
def execDelay (c : ChanId) (s : State) : Host.Outcome State Fault Refusal :=
  .next (carryOut s c .delay fun s st => startDelay s c st)

/-- SIGNAL (R59). -/
def execSignal (c : ChanId) (s : State) : Host.Outcome State Fault Refusal := .next (carryOut s c .signal (runSignal c))

/-- AWAIT (R60). -/
def execAwait (c : ChanId) (s : State) : Host.Outcome State Fault Refusal :=
  .next (carryOut s c .await fun s st => startAwait s c st)

/-- ATTEND (R62). -/
def execAttend (c : ChanId) (s : State) : Host.Outcome State Fault Refusal :=
  .next (carryOut s c .attend fun s st => startAttend s c st)

end Sys2Proof.Machine
end

