-- ==== Sys2Proof/Machine/Timers.lean ====
section
/-! DEFINITION. Timers and timeouts that run out (R49, R58, R61, R63, R81, R105, R110, R111, R113, R118, R126, R127, R129,
R211). A command for a timer that does not run has no effect (log entries 1 and 4). -/

namespace Sys2Proof.Machine

/-! ## Timers of the channels -/

/-- The grant wait of a presented request runs out (R81). -/
def grantWaitRunsOut (s : State) (c : ChanId) : State :=
  if s.ready ∧ (s.presentedOf c).isSome = true ∧ (s.chan c).grantLimit ≠ 0 then
    settle (failAccess (withdraw s c) c .busUnavailable)
  else s

/-- GRANT_WAIT_EXPIRY (R81). -/
def execGrantWaitExpiry (c : ChanId) (s : State) : Host.Outcome State Fault Refusal := .next (grantWaitRunsOut s c)

/-- The current step of a RUNNING channel whose timer runs. -/
def timedStep (s : State) (c : ChanId) : Option Step :=
  if s.ready ∧ (s.chan c).st = .running ∧ (s.chan c).timer.isSome = true then s.step? c else none

/-- The channel's timer stops. -/
def stopTimer (s : State) (c : ChanId) : State := s.modChan c fun ch => { ch with timer := none }

/-- A DELAY has waited its count (R58). -/
def delayRunsOut (s : State) (c : ChanId) : State :=
  match timedStep s c with
  | some st => if StepRecord.kind st.bits = some .delay then settle (completeStep s c) else s
  | none => s

/-- DELAY_EXPIRY (R58). -/
def execDelayExpiry (c : ChanId) (s : State) : Host.Outcome State Fault Refusal := .next (delayRunsOut s c)

/-- The interval of a POLL has passed: the next try is presented (R49). -/
def intervalRunsOut (s : State) (c : ChanId) : State :=
  match timedStep s c with
  | some st => if StepRecord.kind st.bits = some .poll then settle (act (stopTimer s c) c) else s
  | none => s

/-- POLL_INTERVAL_EXPIRY (R49). -/
def execPollIntervalExpiry (c : ChanId) (s : State) : Host.Outcome State Fault Refusal := .next (intervalRunsOut s c)

/-- A wait step's timeout has run out and its entry has left the list: a failure, or under SOFT a warning and the step's
completion (R61, R63). -/
def timedOut (s : State) (c : ChanId) (st : Step) (e : Status) : State :=
  if StepRecord.soft st.bits then completeStep (s.warn c warnSoftTimeout) c else failStep s c e 0

/-- The entry of the channel on a counter's list, where its timeout runs (R156). -/
def syncEntry (s : State) (c : ChanId) (k : CounterId) : Bool :=
  (s.counter k).waiters.any fun w => w.chan == c && w.timeout.isSome

/-- The timeout of an AWAIT runs out (R61, R160). -/
def awaitRunsOut (s : State) (c : ChanId) : State :=
  match s.step? c with
  | some st =>
    let k := StepRecord.index st.bits
    if s.ready ∧ StepRecord.kind st.bits = some .await ∧ st.progress = .waiting ∧ syncEntry s c k = true then
      settle (timedOut (leaveCounter c s k) c st .syncTimeout)
    else s
  | none => s

/-- AWAIT_TIMEOUT (R61, R160). -/
def execAwaitTimeout (c : ChanId) (s : State) : Host.Outcome State Fault Refusal := .next (awaitRunsOut s c)

/-- The entry of the channel on a line's list, where its timeout runs (R151). -/
def attnEntry (s : State) (c : ChanId) (n : LineId) : Bool :=
  (s.line n).waiters.any fun w => w.chan == c && w.timeout.isSome

/-- The timeout of an ATTEND runs out (R63, R151). -/
def attendRunsOut (s : State) (c : ChanId) : State :=
  match s.step? c with
  | some st =>
    let n := StepRecord.index st.bits
    if s.ready ∧ StepRecord.kind st.bits = some .attend ∧ st.progress = .waiting ∧ attnEntry s c n = true then
      settle (timedOut (leaveLine c s n) c st .attnTimeout)
    else s
  | none => s

/-- ATTEND_TIMEOUT (R63, R151). -/
def execAttendTimeout (c : ChanId) (s : State) : Host.Outcome State Fault Refusal := .next (attendRunsOut s c)

/-! ## Timers of the Ownership Controller -/

/-- The turnaround runs out: a passage ends, or the port enters HOLDING (R110, R125). -/
def turnaroundRunsOut (s : State) : State :=
  if s.own.turnTimer.isSome then
    match s.own.passage with
    | some m => settle (endPassage s m)
    | none => if s.own.state = .settling then settle (enterHolding s) else s
  else s

/-- TURNAROUND_EXPIRY (R110, R125). -/
def execTurnaroundExpiry (s : State) : Host.Outcome State Fault Refusal := .next (turnaroundRunsOut s)

/-- The lease timer runs out in GRANTED: LEASE_OVERRUN is raised, and the timer does not start again (R111). -/
def leaseRunsOut (s : State) : State :=
  if s.own.state = .granted ∧ s.own.leaseTimer.isSome = true then
    raiseEvent { s with own := { s.own with leaseTimer := none } } .leaseOverrun 0 0
  else s

/-- LEASE_EXPIRY (R111). -/
def execLeaseExpiry (s : State) : Host.Outcome State Fault Refusal := .next (leaseRunsOut s)

/-- The lock timer runs out: the break is taken at once, or waits for the access in flight (R113). -/
def lockTimerRunsOut (s : State) : State :=
  if s.own.lockTimer.isSome then
    if s.arb.inflight.isSome then { s with own := { s.own with lockTimer := none, breakDue := true } }
    else settle (breakLock { s with own := { s.own with lockTimer := none } })
  else s

/-- LOCK_TIMER_EXPIRY (R113, R114). -/
def execLockTimerExpiry (s : State) : Host.Outcome State Fault Refusal := .next (lockTimerRunsOut s)

/-- The hold timer runs out: claim 3 stands from here on (R82, R118). -/
def holdTimerRunsOut (s : State) : State :=
  if s.own.state = .holding ∧ s.own.holdTimer.isSome = true then
    settle { s with own := { s.own with holdTimer := none, holdPassed := true } }
  else s

/-- HOLD_TIMER_EXPIRY (R118). -/
def execHoldTimerExpiry (s : State) : Host.Outcome State Fault Refusal := .next (holdTimerRunsOut s)

/-- The BACKPLANE_RESET of the pulse completes with the number of entries removed, unless a bridge reset has abandoned it
(R129, R133). -/
def answerPulse (s : State) (removed : Nat) : State :=
  if s.own.answers then
    adminDone { s with own := { s.own with answers := false } } .pulse .ok (BitVec.ofNat 32 removed)
  else s

/-- The pulse ends (R129): the store is emptied, the counts are cleared, BRST_RESET is raised, the port enters HOLDING and
the command completes. A BRST still asserted is then observed (R130). -/
def endPulse (s : State) : State :=
  if s.own.state = .pulsing ∧ s.own.pulseTimer.isSome = true then
    let s1 := enterHolding (boardsReset { s with own := { s.own with pulseTimer := none } } 0)
    let s2 := answerPulse s1 s.shadow.length
    settle (if s2.own.brst then observeReset s2 else s2)
  else s

/-- PULSE_END (R129, R130). -/
def execPulseEnd (s : State) : Host.Outcome State Fault Refusal := .next (endPulse s)

/-- The wait of a port command that a change timer runs for. -/
def PortCmd.wait : PortCmd → AdminWait
  | .setMode _ _ => .portMode
  | .reset _ => .pulse

/-- The change timer runs out before the command acts: TIMED_OUT with the ownership state, and nothing else changes (R126,
R127). -/
def changeTimerRunsOut (s : State) : State :=
  match s.own.cmd, s.own.changeTimer with
  | some cmd, some _ =>
    adminDone { s with own := { s.own with cmd := none, changeTimer := none } } cmd.wait .timedOut
      (BitVec.ofNat 32 s.own.state.code)
  | _, _ => s

/-- CHANGE_TIMER_EXPIRY (R126, R127). -/
def execChangeTimerExpiry (s : State) : Host.Outcome State Fault Refusal := .next (changeTimerRunsOut s)

/-! ## The timebase -/

/-- TIMEBASE_WRAP (R211): from 4,294,967,295 the timebase wraps to 0. No timer is changed by it. -/
def execTimebaseWrap (s : State) : Host.Outcome State Fault Refusal :=
  .next (if !s.initialising && s.timebase == BitVec.allOnes 32 then { s with timebase := 0 } else s)

/-- One µs of the timebase passes (R211). Step.lean takes it on an empty queue (log entry 3). -/
def tick (s : State) : State := if s.initialising then s else { s with timebase := s.timebase + 1 }

end Sys2Proof.Machine
end

