-- ==== Sys2Proof/Machine/UnitCommands.lean ====
section
/-! DEFINITION. The admin commands of the Attention Unit (R153, R154), the Sync Unit (R162) and the Event Unit (R195,
R196), with the end of an event write (R190, R191, R196) and of an interrupt message (R198). -/

namespace Sys2Proof.Machine

/-! ## SET_ATTENTION -/

/-- Every waiter leaves the line's list in order of arrival, and its ATTEND fails (R154). -/
def refuseWaiters (s : State) (n : LineId) : State :=
  let l := s.line n
  l.waiters.foldl (fun t w => failStep t w.chan .attnNotRouted 0) (s.setLine n { l with waiters := [] })

/-- The waiter list is judged against the new configuration; the second part is the number that left (R154 step 3). -/
def judgeWaiters (s : State) (n : LineId) : State × Nat :=
  let l := s.line n
  if !l.routed then (refuseWaiters s n, l.waiters.length)
  else if l.mode = .level ∧ l.level = true then (releaseLine s n, l.waiters.length)
  else (s, 0)

/-- The line takes its mode and route, and its count and flag are cleared (R154 steps 1 and 2). -/
def configureLine (s : State) (n : LineId) (m : AttnMode) (r : AttnRoute) : State :=
  s.setLine n { s.line n with mode := m, route := r, count := 0, saturated := false }

/-- SET_ATTENTION (R153, R154). -/
def setAttention (rec : Record32) (s : State) (id : BitVec 16) : State :=
  match indexOf 8 (AdminRecord.param rec 4 1), attnModeOf (AdminRecord.param rec 5 1),
      attnRouteOf (AdminRecord.param rec 6 1) with
  | some n, some m, some r =>
    if m = .level ∧ r = .event then adminAnswer s id .invalidField 0
    else
      let j := judgeWaiters (configureLine s n m r) n
      settle (adminAnswer j.1 id .ok (BitVec.ofNat 32 j.2))
  | _, _, _ => adminAnswer s id .invalidField 0

/-- SET_ATTENTION (R153, R154). -/
def execSetAttention (rec : Record32) (s : State) : Host.Outcome State Fault Refusal :=
  .next (takeCommand s rec .setAttention (setAttention rec))

/-! ## SET_SYNC -/

/-- SET_SYNC (R162): the old value is noted, the new one taken, and the waiters examined. -/
def setSync (rec : Record32) (s : State) (id : BitVec 16) : State :=
  match indexOf 8 (AdminRecord.param rec 4 1) with
  | some k =>
    if AdminRecord.param rec 8 4 ≤ Config.syncMax then
      let old := (s.counter k).value
      let s := examine (s.setCounter k { s.counter k with value := AdminRecord.param rec 8 4 }) k
      settle (adminAnswer s id .ok (BitVec.ofNat 32 old))
    else adminAnswer s id .invalidField 0
  | none => adminAnswer s id .invalidField 0

/-- SET_SYNC (R162). -/
def execSetSync (rec : Record32) (s : State) : Host.Outcome State Fault Refusal :=
  .next (takeCommand s rec .setSync (setSync rec))

/-! ## CONFIGURE_EVENTS -/

/-- The checks of R195. -/
def eventRingOk (size : Nat) (base : HostAddr) : Bool :=
  if size = 0 then base == 0
  else ringSizeOk 8 1024 size && multipleOf base 64 && hostRangeOk base (16 * size)

/-- The Event Unit begins a ring (R196). A write in flight belongs to the old ring from here on. -/
def beginRing (e : EventUnit) (base : HostAddr) (size : Nat) : EventUnit :=
  { e with base := base, size := size, tail := 0, head := 0, unconsumed := 0, phase := true, fault := false,
           write := e.write.map fun w => { w with stale := true } }

/-- CONFIGURE_EVENTS (R195, R196). The detail counts the records held before the first of them is written (log
entry 24). -/
def configureEvents (rec : Record32) (s : State) (id : BitVec 16) : State :=
  let size := AdminRecord.param rec 4 2
  let base := AdminRecord.host rec 24
  if eventRingOk size base then
    startEventWrite
      (adminAnswer { s with events := beginRing s.events base size } id .ok (BitVec.ofNat 32 s.events.holding.length))
  else adminAnswer s id .invalidField 0

/-- CONFIGURE_EVENTS (R195, R196). -/
def execConfigureEvents (rec : Record32) (s : State) : Host.Outcome State Fault Refusal :=
  .next (takeCommand s rec .configureEvents (configureEvents rec))

/-! ## EVENT_WRITE_END -/

/-- An event record is posted (R190). -/
def postEvent (e : EventUnit) : EventUnit :=
  { e with tail := wrapInc e.size e.tail, unconsumed := e.unconsumed + 1,
           phase := if wrapInc e.size e.tail = 0 then !e.phase else e.phase }

/-- A failed event write returns its record to the holding set (R191, R196). -/
def returnEvent (e : EventUnit) (r : EventRecord) : EventUnit := { e with holding := holdingReturn e.holding r }

/-- The write of an event record ends (R190, R191, R196). During a bridge reset its outcome is discarded (R197, R207). -/
def endEventWrite (s : State) (ok : Bool) : State :=
  match s.events.write with
  | none => s
  | some w =>
    let e := { s.events with write := none }
    if !s.ready then { s with events := e }
    else if w.stale then startEventWrite { s with events := if ok then e else returnEvent e w.record }
    else if ok then startEventWrite (askVector { s with events := postEvent e } 1)
    else { s with events := { returnEvent e w.record with fault := true } }

/-- EVENT_WRITE_END (R190, R191, R196). -/
def execEventWriteEnd (ok : Bool) (s : State) : Host.Outcome State Fault Refusal := .next (endEventWrite s ok)

/-! ## MESSAGE_END -/

/-- An interrupt message ends; a failure sets the pending bit, but not during a bridge reset (R198, R207). -/
def endMessage (s : State) (v : VectorId) (ok : Bool) : State :=
  let x := s.vector v
  if x.messages = 0 then s
  else s.setVector v { x with messages := x.messages - 1, waiting := x.waiting || (!ok && s.ready) }

/-- MESSAGE_END (R198). -/
def execMessageEnd (v : VectorId) (ok : Bool) (s : State) : Host.Outcome State Fault Refusal := .next (endMessage s v ok)

end Sys2Proof.Machine
end

