-- ==== Sys2Proof/Machine/Dispatch.lean ====
section
/-! DEFINITION. One arm per command, each one direct call of its meaning. -/

namespace Sys2Proof.Machine

def exec (i : Instr) (s : State) : Host.Outcome State Fault Refusal :=
  match i with
  | .configureChannel rec => Sys2Proof.Machine.execConfigureChannel rec s
  | .startChannel rec => Sys2Proof.Machine.execStartChannel rec s
  | .pauseChannel rec => Sys2Proof.Machine.execPauseChannel rec s
  | .abortChannel rec => Sys2Proof.Machine.execAbortChannel rec s
  | .abortChannelFlush rec => Sys2Proof.Machine.execAbortChannelFlush rec s
  | .releaseChannel rec => Sys2Proof.Machine.execReleaseChannel rec s
  | .queryChannel rec => Sys2Proof.Machine.execQueryChannel rec s
  | .setRegion rec => Sys2Proof.Machine.execSetRegion rec s
  | .clearRegion rec => Sys2Proof.Machine.execClearRegion rec s
  | .queryRegions rec => Sys2Proof.Machine.execQueryRegions rec s
  | .setPortMode rec => Sys2Proof.Machine.execSetPortMode rec s
  | .backplaneReset rec => Sys2Proof.Machine.execBackplaneReset rec s
  | .seedShadow rec => Sys2Proof.Machine.execSeedShadow rec s
  | .purgeShadow rec => Sys2Proof.Machine.execPurgeShadow rec s
  | .queryShadow rec => Sys2Proof.Machine.execQueryShadow rec s
  | .setAttention rec => Sys2Proof.Machine.execSetAttention rec s
  | .setSync rec => Sys2Proof.Machine.execSetSync rec s
  | .configureEvents rec => Sys2Proof.Machine.execConfigureEvents rec s
  | .unknownCommand rec => Sys2Proof.Machine.execUnknownCommand rec s
  | .commandReadStart => Sys2Proof.Machine.execCommandReadStart s
  | .commandReadFault => Sys2Proof.Machine.execCommandReadFault s
  | .adminCompletionWriteEnd ok => Sys2Proof.Machine.execAdminCompletionWriteEnd ok s
  | .snapshotWriteEnd ok => Sys2Proof.Machine.execSnapshotWriteEnd ok s
  | .enable value => Sys2Proof.Machine.execEnable value s
  | .bridgeReset enable => Sys2Proof.Machine.execBridgeReset enable s
  | .linkHotReset => Sys2Proof.Machine.execLinkHotReset s
  | .bridgeResetComplete => Sys2Proof.Machine.execBridgeResetComplete s
  | .powerOn => Sys2Proof.Machine.execPowerOn s
  | .powerOnInitialisationEnd => Sys2Proof.Machine.execPowerOnInitialisationEnd s
  | .adminBase w => Sys2Proof.Machine.execAdminBase w s
  | .intr word => Sys2Proof.Machine.execIntr word s
  | .channelQueueIndexWrite c word => Sys2Proof.Machine.execChannelQueueIndexWrite c word s
  | .adminQueueIndexWrite word => Sys2Proof.Machine.execAdminQueueIndexWrite word s
  | .eventQueueIndexWrite word => Sys2Proof.Machine.execEventQueueIndexWrite word s
  | .noRegisterWrite offset size value => Sys2Proof.Machine.execNoRegisterWrite offset size value s
  | .requestTake c => Sys2Proof.Machine.execRequestTake c s
  | .requestReadEnd c r => Sys2Proof.Machine.execRequestReadEnd c r s
  | .flushRequestReadEnd c r => Sys2Proof.Machine.execFlushRequestReadEnd c r s
  | .stepFetchEnd c r => Sys2Proof.Machine.execStepFetchEnd c r s
  | .readHostWriteEnd c ok => Sys2Proof.Machine.execReadHostWriteEnd c ok s
  | .blockInSlotWriteEnd c ok => Sys2Proof.Machine.execBlockInSlotWriteEnd c ok s
  | .blockOutSlotReadEnd c v => Sys2Proof.Machine.execBlockOutSlotReadEnd c v s
  | .completionWriteEnd c ok => Sys2Proof.Machine.execCompletionWriteEnd c ok s
  | .eventWriteEnd ok => Sys2Proof.Machine.execEventWriteEnd ok s
  | .messageEnd v ok => Sys2Proof.Machine.execMessageEnd v ok s
  | .write c => Sys2Proof.Machine.execWrite c s
  | .read c => Sys2Proof.Machine.execRead c s
  | .modify c => Sys2Proof.Machine.execModify c s
  | .poll c => Sys2Proof.Machine.execPoll c s
  | .blockIn c => Sys2Proof.Machine.execBlockIn c s
  | .blockOut c => Sys2Proof.Machine.execBlockOut c s
  | .call c => Sys2Proof.Machine.execCall c s
  | .endStep c => Sys2Proof.Machine.execEndStep c s
  | .delay c => Sys2Proof.Machine.execDelay c s
  | .signal c => Sys2Proof.Machine.execSignal c s
  | .await c => Sys2Proof.Machine.execAwait c s
  | .attend c => Sys2Proof.Machine.execAttend c s
  | .accessDone lanes => Sys2Proof.Machine.execAccessDone lanes s
  | .targetError => Sys2Proof.Machine.execTargetError s
  | .readyTimeout => Sys2Proof.Machine.execReadyTimeout s
  | .strobeEnd lanes => Sys2Proof.Machine.execStrobeEnd lanes s
  | .grantWaitExpiry c => Sys2Proof.Machine.execGrantWaitExpiry c s
  | .delayExpiry c => Sys2Proof.Machine.execDelayExpiry c s
  | .pollIntervalExpiry c => Sys2Proof.Machine.execPollIntervalExpiry c s
  | .awaitTimeout c => Sys2Proof.Machine.execAwaitTimeout c s
  | .attendTimeout c => Sys2Proof.Machine.execAttendTimeout c s
  | .turnaroundExpiry => Sys2Proof.Machine.execTurnaroundExpiry s
  | .leaseExpiry => Sys2Proof.Machine.execLeaseExpiry s
  | .lockTimerExpiry => Sys2Proof.Machine.execLockTimerExpiry s
  | .holdTimerExpiry => Sys2Proof.Machine.execHoldTimerExpiry s
  | .pulseEnd => Sys2Proof.Machine.execPulseEnd s
  | .changeTimerExpiry => Sys2Proof.Machine.execChangeTimerExpiry s
  | .timebaseWrap => Sys2Proof.Machine.execTimebaseWrap s
  | .reqRise => Sys2Proof.Machine.execReqRise s
  | .reqFall => Sys2Proof.Machine.execReqFall s
  | .gntRise => Sys2Proof.Machine.execGntRise s
  | .gntFall => Sys2Proof.Machine.execGntFall s
  | .observedReset => Sys2Proof.Machine.execObservedReset s
  | .brstRelease => Sys2Proof.Machine.execBrstRelease s
  | .assertionEdge n => Sys2Proof.Machine.execAssertionEdge n s
  | .attentionLineRelease n => Sys2Proof.Machine.execAttentionLineRelease n s

end Sys2Proof.Machine
end

