-- ==== Sys2Proof/Machine/Step.lean ====
section
/-! DEFINITION. The step of the bridge: the command at the front of the queue. -/

namespace Sys2Proof.Machine

/-- Take the command at the front of the queue and run it on the state with the queue's rest. On an empty queue one µs of the
timebase passes and nothing else happens (log entry 3). -/
def step (s : State) : Host.Outcome State Fault Refusal :=
  match s.pending with
  | i :: rest => exec i { s with pending := rest }
  | [] => .next (tick s)

/-- The state with the command a word spells put at the front of its queue; unchanged where the word spells none. The table
gives no row any bits, so no word spells a command (log entry 6). -/
def State.withFetchWord (s : State) (nbits w : Nat) : State :=
  match Sys2Proof.decodeTableWord nbits w with
  | some i => { s with pending := i :: s.pending }
  | none => s

end Sys2Proof.Machine
end

