-- ==== Sys2Proof/WellFormed.lean ====
section
/-! DEFINITION. Which commands the bridge can be given: an admin row carries a record that names it, and a write that meets no
register is one that the window's layout gives none. -/

namespace Sys2Proof

/-- The record names the command (11.6). -/
def named (r : Record32) (k : Machine.AdminCode) : Bool := Machine.adminCodeOf (Machine.AdminRecord.code r) == some k

/-- The mode of an ABORT_CHANNEL record is FLUSH (11.6). -/
def modeFlush (r : Record32) : Bool := Machine.AdminRecord.param r 5 1 == 1

/-- A command the bridge can be given. Every row but those named here is well-formed with any operands. -/
def Instr.wellFormed : Instr → Bool
  | .configureChannel r => named r .configureChannel
  | .startChannel r => named r .startChannel
  | .pauseChannel r => named r .pauseChannel
  | .abortChannel r => named r .abortChannel && !modeFlush r
  | .abortChannelFlush r => named r .abortChannel && modeFlush r
  | .releaseChannel r => named r .releaseChannel
  | .queryChannel r => named r .queryChannel
  | .setRegion r => named r .setRegion
  | .clearRegion r => named r .clearRegion
  | .queryRegions r => named r .queryRegions
  | .setPortMode r => named r .setPortMode
  | .backplaneReset r => named r .backplaneReset
  | .seedShadow r => named r .seedShadow
  | .purgeShadow r => named r .purgeShadow
  | .queryShadow r => named r .queryShadow
  | .setAttention r => named r .setAttention
  | .setSync r => named r .setSync
  | .configureEvents r => named r .configureEvents
  | .unknownCommand r => (Machine.adminCodeOf (Machine.AdminRecord.code r)).isNone
  | .noRegisterWrite off size v => decodeRegisterWrite off size v == .noRegisterWrite off size v
  | .commandReadStart => true
  | .commandReadFault => true
  | .adminCompletionWriteEnd _ => true
  | .snapshotWriteEnd _ => true
  | .enable _ => true
  | .bridgeReset _ => true
  | .linkHotReset => true
  | .bridgeResetComplete => true
  | .powerOn => true
  | .powerOnInitialisationEnd => true
  | .adminBase _ => true
  | .intr _ => true
  | .channelQueueIndexWrite _ _ => true
  | .adminQueueIndexWrite _ => true
  | .eventQueueIndexWrite _ => true
  | .requestTake _ => true
  | .requestReadEnd _ _ => true
  | .flushRequestReadEnd _ _ => true
  | .stepFetchEnd _ _ => true
  | .readHostWriteEnd _ _ => true
  | .blockInSlotWriteEnd _ _ => true
  | .blockOutSlotReadEnd _ _ => true
  | .completionWriteEnd _ _ => true
  | .eventWriteEnd _ => true
  | .messageEnd _ _ => true
  | .write _ => true
  | .read _ => true
  | .modify _ => true
  | .poll _ => true
  | .blockIn _ => true
  | .blockOut _ => true
  | .call _ => true
  | .endStep _ => true
  | .delay _ => true
  | .signal _ => true
  | .await _ => true
  | .attend _ => true
  | .accessDone _ => true
  | .targetError => true
  | .readyTimeout => true
  | .strobeEnd _ => true
  | .grantWaitExpiry _ => true
  | .delayExpiry _ => true
  | .pollIntervalExpiry _ => true
  | .awaitTimeout _ => true
  | .attendTimeout _ => true
  | .turnaroundExpiry => true
  | .leaseExpiry => true
  | .lockTimerExpiry => true
  | .holdTimerExpiry => true
  | .pulseEnd => true
  | .changeTimerExpiry => true
  | .timebaseWrap => true
  | .reqRise => true
  | .reqFall => true
  | .gntRise => true
  | .gntFall => true
  | .observedReset => true
  | .brstRelease => true
  | .assertionEdge _ => true
  | .attentionLineRelease _ => true

end Sys2Proof
end

