-- ==== Sys2Proof/Safety.lean ====
section
/-! DEFINITION. What counts as a safe state of the bridge, in the terms the claims use: the laws the spec states of the whole
machine (R12, R68, R86, R90, R104, R134, R149, R156, R166), and the conditions under which a command meets its own effect. -/

namespace Sys2Proof.Safety

open Sys2Proof.Machine

/-! ## Laws -/

/-- No two valid windows overlap (R90, R96). -/
def TableLaw (s : State) : Prop :=
  ∀ i j g h, i ≠ j → s.region i = some g → s.region j = some h → g.overlaps h = false

/-- The law of the Shadow Store (R134): at most 64 entries, no two with the same address, each inside the valid
WRITE_ONLY_SHADOWED window that its region index names. -/
def StoreLaw (s : State) : Prop :=
  s.shadow.length ≤ Config.shadowSize ∧ (s.shadow.map fun e => e.addr).Nodup ∧
    ∀ e ∈ s.shadow, ∃ g, s.region e.index = some g ∧ g.rights = .writeOnlyShadowed ∧ g.holds e.addr = true

/-- The access in flight is one the table still names as it stood at issue (R68, R97). -/
def SnapshotLaw (s : State) : Prop :=
  ∀ f, s.arb.inflight = some f → s.region f.index = some f.region ∧ f.region.holds f.addr = true

/-- A region change waits only behind an access in flight, with its command in progress unless a bridge reset has ended it, and
not while the bridge initialises; its window overlaps no other (R96, R97, R102). -/
def WaitingLaw (s : State) : Prop :=
  (s.regionWait.isSome = true →
    s.arb.inflight.isSome = true ∧ s.initialising = false ∧
      (s.ready = true → ∃ id, s.admin.progress = .waiting id .region)) ∧
  ∀ i g, s.regionWait = some (.set i g) → ∀ j h, j ≠ i → s.region j = some h → h.overlaps g = false

/-- What every step keeps of the Region Table and the Shadow Store. -/
def StoreInv (s : State) : Prop := TableLaw s ∧ StoreLaw s ∧ SnapshotLaw s ∧ WaitingLaw s

/-- The ownership states of each mode (R104). -/
def legalState : PortMode → OwnState → Bool
  | .isolated, st => st == .isolated
  | .master, st => st == .holding || st == .settling || st == .granted || st == .pulsing
  | .guest, st => st == .holding || st == .settling || st == .released || st == .requesting

/-- The law of the port: an access is in flight, or a lock held, only while the port is HOLDING (R68, R86), the ownership
state belongs to the port mode (R104), a passage runs in ISOLATED mode (R125), a BACKPLANE_RESET waits in MASTER mode
(R127), and a preemption waits in GUEST mode, in HOLDING or SETTLING, behind an access in flight (R119). -/
def PortInv (s : State) : Prop :=
  (s.arb.inflight.isSome = true → s.own.state = .holding) ∧ (s.arb.lock.isSome = true → s.own.state = .holding) ∧
  legalState s.own.mode s.own.state = true ∧ (s.own.passage.isSome = true → s.own.mode = .isolated) ∧
  (∀ w, s.own.cmd = some (.reset w) → s.own.mode = .master) ∧
  (s.own.preemptDue = true → s.own.mode = .guest ∧ (s.own.state = .holding ∨ s.own.state = .settling) ∧
    s.arb.inflight.isSome = true)

/-- The counts stay in their ranges (R149, R156): a pending count within 0..15, and 0 for every line not configured EDGE with
route WAIT; a sync counter within 0..65535. -/
def CountInv (s : State) : Prop :=
  (∀ n, (s.line n).count ≤ Config.attnMax ∧
    ((s.line n).count ≠ 0 → (s.line n).mode = .edge ∧ (s.line n).route = .wait)) ∧
  ∀ k, (s.counter k).value ≤ Config.syncMax

/-- A link stack holds at most six positions, and once the script has ended it holds none and no step is current (R12, R13). -/
def LinkInv (s : State) : Prop :=
  ∀ c sc, (s.chan c).script = some sc →
    sc.links.length ≤ Config.linkDepth ∧ (sc.ending.isSome = true → sc.links = [] ∧ sc.current = none)

/-- A completion of the channel is still to be posted: a script is active, or a flush has a request in hand (R3, R27). -/
def Owes (ch : Channel) : Prop :=
  ch.st ≠ .faulted ∧ (ch.script.isSome = true ∨ (∃ a, ch.data = some (.flushRead a)) ∨ ∃ w, ch.data = some (.completion w))

/-- Posted records and the reservation never exceed a completion ring's size, and what is to be posted has its slot
reserved (R3, R166). -/
def RingInv (s : State) : Prop :=
  ∀ c, (∀ r, (s.chan c).rings = some r → r.unconsumed + (if (s.chan c).reserved then 1 else 0) ≤ r.cqSize) ∧
    (Owes (s.chan c) → (s.chan c).reserved = true)

/-- The holding set has at most one record of each pair of kind and source (R189). -/
def HoldingInv (s : State) : Prop := (s.events.holding.map fun r => (r.kind, r.source)).Nodup

/-! ## Conditions of the commands -/

/-- The read of an admin command ends with success on a bridge that is not resetting, and the record passes the common checks
(R178, R179). With ADMIN_FAULT set meanwhile it is taken too (log entry 32). -/
def Taken (s : State) (rec : Record32) (k : AdminCode) : Prop :=
  (∃ a, s.admin.progress = .reading a) ∧ s.ready = true ∧ AdminRecord.commonOk rec k = true

/-- The admin SQ head has advanced past the command taken (R178). -/
def headPast (s : State) : State := { s with admin := { s.admin with ring := s.admin.ring.advanceHead } }

/-- The command taken completes with this status and detail. -/
def answered (s : State) (rec : Record32) (st : AdminStatus) (d : Detail) : State :=
  adminAnswer (headPast s) (AdminRecord.id rec) st d

/-- The record names channel c, in this state (R17). -/
def Names (s : State) (rec : Record32) (c : ChanId) (st : ChanState) : Prop :=
  AdminRecord.param rec 4 1 = c.val ∧ (s.chan c).st = st

/-- The channel, RUNNING, has started this step of this kind and it passes its check (R7, R35). -/
def Ready (s : State) (c : ChanId) (k : StepKind) (st : Step) : Prop :=
  s.ready = true ∧ (s.chan c).st = .running ∧ s.step? c = some st ∧ st.progress = .fresh ∧
    StepRecord.kind st.bits = some k ∧ StepRecord.ok st.bits k = true

/-- A channel's script is active and its end is not yet fixed (R1, R13). -/
def Unended (s : State) (c : ChanId) : Prop := ∃ sc, (s.chan c).script = some sc ∧ sc.ending = none

/-- The channel's script is active, its end not fixed, with this step current (R6, R13). -/
def InStep (s : State) (c : ChanId) (sc : Script) (st : Step) : Prop :=
  (s.chan c).script = some sc ∧ sc.ending = none ∧ sc.current = some st

/-- No break and no region change waits for the end of an access (R74). -/
def NothingWaits (s : State) : Prop :=
  s.own.breakDue = false ∧ s.own.preemptDue = false ∧ s.regionWait = none

/-- The access in flight is over (R74). -/
def accessOver (s : State) : State := { s with arb := { s.arb with inflight := none } }

/-- The data transfer in flight of the channel is over. -/
def dataOver (s : State) (c : ChanId) : State := s.setChan c { s.chan c with data := none }

/-- The channel stands on no waiter list. -/
def OnNoList (s : State) (c : ChanId) : Prop :=
  (∀ k, ∀ w ∈ (s.counter k).waiters, w.chan ≠ c) ∧ ∀ n, ∀ w ∈ (s.line n).waiters, w.chan ≠ c

/-- t is s after channel c has left the waiter list it stands on (R20, R25, R160): none; a counter's, a consumer's departure
being followed by an examination (R158); or a line's. -/
def CutOff (s : State) (c : ChanId) (t : State) : Prop :=
  OnNoList s c ∧ t = s ∨
  (∃ k w, (∀ n, ∀ x ∈ (s.line n).waiters, x.chan ≠ c) ∧ (∀ j, j ≠ k → ∀ x ∈ (s.counter j).waiters, x.chan ≠ c) ∧
    (s.counter k).waiters.find? (fun x => x.chan == c) = some w ∧
    let left := s.setCounter k { s.counter k with waiters := (s.counter k).waiters.filter fun x => x.chan != c }
    t = if w.consume then examine left k else left) ∨
  ∃ n, (∀ k, ∀ x ∈ (s.counter k).waiters, x.chan ≠ c) ∧ (∀ m, m ≠ n → ∀ x ∈ (s.line m).waiters, x.chan ≠ c) ∧
    t = s.setLine n { s.line n with waiters := (s.line n).waiters.filter fun x => x.chan != c }

/-- No step is released from a waiter list and still to be completed. Every state between two happenings is so. -/
def Quiescent (s : State) : Prop := ∀ c st b, s.step? c = some st → st.progress ≠ .released b

/-- The port is at a yield point (R82). -/
def YieldPoint (s : State) : Prop :=
  s.own.state = .holding ∧ s.arb.inflight = none ∧ s.own.brst = false ∧ s.arb.lock = none

/-- The table of section 1.6: the states in which a command to a channel is not refused with BAD_STATE. -/
def accepts : AdminCode → ChanState → Bool
  | .configureChannel, st => st == .disabled
  | .startChannel, st => st == .stopped || st == .paused
  | .pauseChannel, st => st == .idle || st == .running || st == .paused
  | .abortChannel, st => st == .stopped || st == .idle || st == .running || st == .paused
  | .releaseChannel, st => st == .stopped || st == .faulted
  | _, _ => true

/-- The commands to a channel, with their codes (1.6). -/
def channelCommands (rec : Record32) : List (AdminCode × Instr) :=
  [(.configureChannel, .configureChannel rec), (.startChannel, .startChannel rec), (.pauseChannel, .pauseChannel rec),
   (.abortChannel, .abortChannel rec), (.abortChannel, .abortChannelFlush rec), (.releaseChannel, .releaseChannel rec),
   (.queryChannel, .queryChannel rec)]

/-- Every admin command the code table names, with its code (11.6). -/
def adminCommands (rec : Record32) : List (AdminCode × Instr) :=
  channelCommands rec ++
    [(.setRegion, .setRegion rec), (.clearRegion, .clearRegion rec), (.queryRegions, .queryRegions rec),
     (.setPortMode, .setPortMode rec), (.backplaneReset, .backplaneReset rec), (.seedShadow, .seedShadow rec),
     (.purgeShadow, .purgeShadow rec), (.queryShadow, .queryShadow rec), (.setAttention, .setAttention rec),
     (.setSync, .setSync rec), (.configureEvents, .configureEvents rec)]

/-- An unmarked or marked first attempt of an access of the current step (R79). -/
def request (s : State) (c : ChanId) (st : Step) (p : Purpose) (a : BusAddr) (v : Option Value) : Request :=
  { addr := a, purpose := p, value := v, mark := lockMark s c st, attempt := 1, presentedAt := s.timebase }

end Sys2Proof.Safety
end

