-- ==== Sys2Proof/Certificates/Slice0/Obligations.lean ====
section
/-! DEFINITION. The statements for the provers. A command's statement gives the next state it answers, from conditions on the
state and the operands alone. What `adminAnswer`, `endScript`, `serve` and `raiseEvent` leave is stated by statements of
their own, and the others use them. -/

open Sys2Proof Sys2Proof.Machine Sys2Proof.Safety

/-! ## The queue and the shared operations -/

/-- The cut of this row: a step is the command at the front of the queue, run on the state with the queue's rest. -/
def Obligations.StepRunsFront : Prop :=
  ∀ (s : State) (i : Instr) (rest : List Instr), s.pending = i :: rest → step s = exec i { s with pending := rest }

/-- The model's choice, log entry 3: on an empty queue one µs passes (R211), and nothing else changes. -/
def Obligations.IdleStepTicks : Prop :=
  ∀ s : State, s.pending = [] →
    step s = .next (if s.ready = true ∨ s.cause ≠ .powerOn then { s with timebase := s.timebase + 1 } else s)

/-- No command but the step itself touches the queue. -/
def Obligations.QueueUntouched : Prop :=
  ∀ (i : Instr) (s t : State), exec i s = .next t → t.pending = s.pending

/-- R181, R185: a command done starts the write of its admin completion into the slot at the admin CQ tail, and with
ADMIN_FAULT set writes nothing and is no longer in progress. -/
def Obligations.AdminAnswerWrites : Prop :=
  ∀ (s : State) (id : BitVec 16) (st : AdminStatus) (d : Detail),
    adminAnswer s id st d =
      { s with admin := { s.admin with
        progress := if s.admin.fault then .idle else .completing
          { addr := hostAdd s.admin.ring.cqBase (16 * s.admin.ring.cqTail),
            bytes := [id.extractLsb' 0 8, id.extractLsb' 8 8, st.code, if s.admin.ring.phase then 1 else 0,
              BitVec.ofNat 8 s.admin.ring.sqHead, BitVec.ofNat 8 (s.admin.ring.sqHead / 256), 0, 0,
              d.extractLsb' 0 8, d.extractLsb' 8 8, d.extractLsb' 16 8, d.extractLsb' 24 8, 0, 0, 0, 0] } } }

/-- R8, R10, R11, R13, R14, R167, R213: a script that ends holds no lock, presents nothing, stands on no list, and keeps
neither step, window nor link stack; its timer stops, a fetch in flight is to be discarded, and its outcome is fixed. Its
completion write starts when no data transfer of the channel is in flight, with the wait reason HOST_WRITE in RUNNING, PAUSING
and ABORTING, and nothing else changes. The bytes of the completion record stand at their offsets, the two counts holding at
16777215. -/
def Obligations.ScriptEnds : Prop :=
  (∀ (tag : BitVec 16) (st : Status) (w : Warnings) (phase : Bool) (head executed ordinal : Nat) (d : Detail),
    let e := min executed 16777215
    let o := min ordinal 16777215
    completionBytes tag st w phase head executed ordinal d =
      [tag.extractLsb' 0 8, tag.extractLsb' 8 8, st.code,
       (if w.shadowFull then 1 else 0) ||| (if w.softTimeout then 2 else 0) ||| (if w.attnSaturated then 4 else 0) |||
         (if phase then 0x80 else 0),
       BitVec.ofNat 8 head, BitVec.ofNat 8 (head / 256), BitVec.ofNat 8 e, BitVec.ofNat 8 (e / 256),
       BitVec.ofNat 8 (e / 65536), BitVec.ofNat 8 o, BitVec.ofNat 8 (o / 256), BitVec.ofNat 8 (o / 65536),
       d.extractLsb' 0 8, d.extractLsb' 8 8, d.extractLsb' 16 8, d.extractLsb' 24 8]) ∧
  ∀ (s : State) (c : ChanId) (st : Status) (o : Nat) (d : Detail) (sc : Script) (r : RingPair),
    (s.chan c).script = some sc → (s.chan c).rings = some r →
    let ended : Script := { sc with
      current := none, window := [], links := [], ending := some { status := st, ordinal := o, detail := d } }
    let write : Data := .completion { addr := hostAdd r.cqBase (16 * r.cqTail),
                                      bytes := completionBytes sc.tag st sc.warnings r.phase r.sqHead sc.executed o d }
    let t := endScript s c st o d
    (t.chan c).script = some ended ∧ (t.chan c).timer = none ∧ (t.chan c).st = (s.chan c).st ∧
      lockHeldBy t c = false ∧ t.presentedOf c = none ∧ OnNoList t c ∧
      (t.chan c).fetch = (s.chan c).fetch.map (fun f => { f with discard := true }) ∧
      ((s.chan c).data = none → (t.chan c).data = some write) ∧
      ((s.chan c).data ≠ none → (t.chan c).data = (s.chan c).data) ∧
      let freed : State :=
        if lockHeldBy s c then { s with arb := { s.arb with lock := none }, own := { s.own with lockTimer := none } } else s
      ∀ u, CutOff (freed.setPresented c none) c u → t = u.setChan c { s.chan c with
        timer := none, script := some ended, fetch := (s.chan c).fetch.map fun f => { f with discard := true },
        data := if (s.chan c).data = none then some write else (s.chan c).data,
        wait := if (s.chan c).data = none ∧
            ((s.chan c).st = .running ∨ (s.chan c).st = .pausing ∨ (s.chan c).st = .aborting) then .hostWrite
          else (s.chan c).wait }

/-- R82, R84: the port is served until no claim stands, or the port is closed. -/
def Obligations.ServiceReachesRest : Prop := ∀ s : State, serveOne (serve s) = none

/-- R82 to R84, R87: the claims of a yield point in their order. The peer's pending REQ is first; then a waiting SET_PORT_MODE
or BACKPLANE_RESET, also where a guest hold limit has passed; then the passed hold limit; then the request of the first channel
after the last served; and last, in GUEST mode with no request presented, the bus is given up. After an issue or a change of
mode the claims that stand then are served. A closed port serves nothing, and under a lock an open port issues the holder's
request or nothing. That the set does not count as empty while a started step is still to be carried out is the model's choice,
log entry 2. -/
def Obligations.YieldPointOrder : Prop :=
  (∀ s : State, stepDue s = true ↔ s.ready = true ∧
    ∃ c sc st, (s.chan c).st = .running ∧ InStep s c sc st ∧ st.progress = .fresh) ∧
  (∀ s : State, (s.own.state ≠ .holding ∨ s.arb.inflight.isSome = true ∨ s.own.brst = true) → serve s = s) ∧
  (∀ (s : State) (h : ChanId) (k : LockKind), s.arb.lock = some (h, k) →
    (s.presentedOf h = none → serve s = s) ∧
    (s.presentedOf h ≠ none → s.own.state = .holding → s.arb.inflight = none → s.own.brst = false →
      serve s = serve (issue s h))) ∧
  ∀ s : State, YieldPoint s →
    (s.own.mode = .master → s.own.req = true →
      serve s = { s with own := { s.own with
        state := .granted,
        leaseTimer := if s.own.params.leaseLimit = 0 then none else some s.own.params.leaseLimit } }) ∧
    (¬ (s.own.mode = .master ∧ s.own.req = true) →
      (∀ m p, s.own.cmd = some (.setMode m p) → serve s = serve (changeMode s m p)) ∧
      (∀ w, s.own.cmd = some (.reset w) →
        serve s = { s with own := { s.own with
          state := .pulsing, pulseTimer := some w, cmd := none, changeTimer := none, answers := true } }) ∧
      (s.own.cmd = none → s.own.mode = .guest → s.own.holdPassed = true →
        serve s = { s with own := { s.own with
          state := if s.own.gnt = true ∨ ∀ c, s.presentedOf c = none then .released else .requesting,
          holdTimer := none, turnTimer := none, holdPassed := false } }) ∧
      (s.own.cmd = none → ¬ (s.own.mode = .guest ∧ s.own.holdPassed = true) →
        (∀ k : Fin 4, s.presentedOf (s.arb.lastServed + 1 + k) ≠ none →
          (∀ j : Fin 4, j < k → s.presentedOf (s.arb.lastServed + 1 + j) = none) →
          serve s = serve (issue s (s.arb.lastServed + 1 + k))) ∧
        ((∀ c, s.presentedOf c = none) →
          (s.own.mode = .guest → stepDue s = false → serve s = { s with own := { s.own with
            state := .released, holdTimer := none, turnTimer := none, holdPassed := false } }) ∧
          (s.own.mode ≠ .guest ∨ stepDue s = true → serve s = s))))

/-- R37, R44, R46, R64, R67 to R69, R75 to R77, R83, R85, R112: the issue of a channel's request. It leaves the set, and the
channel is last served. The checks are made in the order of R75 and the first that fails is the outcome, which fails the step
with the unit's address or the units done; a request that passes them is the access in flight, with the region as it stands,
the value whole, and the attempt number. A marked request takes the lock where none is held, and a pending REQ then starts the
lock timer. A write half served from the Shadow Store forms its value now. That SHADOW_MISS comes behind the four checks is the
model's choice, log entry 28. -/
def Obligations.IssueActs : Prop :=
  (∀ (s : State) (c : ChanId) (sc : Script) (st : Step) (e : Status), InStep s c sc st →
    failAccess s c e = endScript s c e sc.ordinals (match st.progress with
      | .blockIn d _ _ => BitVec.ofNat 32 d
      | .blockOut d _ _ => BitVec.ofNat 32 d
      | _ => (StepRecord.addr st.bits).setWidth 32)) ∧
  (∀ (s : State) (c : ChanId), s.presentedOf c = none → issue s c = s) ∧
  ∀ (s : State) (c : ChanId) (r : Request) (sc : Script) (st : Step), s.presentedOf c = some r → InStep s c sc st →
    let gone : State := { s with arb := { s.arb with presented := s.arb.presented.set c none, lastServed := c } }
    (s.own.mode = .isolated → issue s c = failAccess gone c .portIsolated) ∧
    (s.own.mode ≠ .isolated → lookup s.regions r.addr = none → issue s c = failAccess gone c .regionMiss) ∧
    ∀ i g, s.own.mode ≠ .isolated → lookup s.regions r.addr = some (i, g) →
      let allowed : Prop := match g.rights with
        | .readWrite => True
        | .readOnly => r.purpose ∈ [Purpose.read, .pollTry, .blockIn]
        | .writeOnly => r.purpose ∈ [Purpose.write, .modifyWrite, .blockOut]
        | .writeOnlyShadowed => r.purpose ∈ [Purpose.write, .modifyWrite, .blockOut]
      let odd : Prop := g.width = .w16 ∧ r.addr.toNat % 2 = 1
      let begun (v : Option Value) : State :=
        { gone with
          chans := s.chans.set c { s.chan c with
            wait := .access,
            script := some { sc with current := some { st with progress := match st.progress with
              | .modWrite kept _ => .modWrite kept true
              | p => p } } },
          arb := { gone.arb with
            lock := match r.mark, s.arb.lock with
              | some k, none => some (c, k)
              | _, l => l,
            inflight := some { chan := c, addr := r.addr, purpose := r.purpose, value := v, mark := r.mark, index := i,
                               region := g, attempt := r.attempt } },
          own := { s.own with
            lockTimer := if r.mark ≠ none ∧ s.arb.lock = none ∧ s.own.mode = .master ∧ s.own.state = .holding ∧
                s.own.req = true ∧ s.own.lockTimer = none ∧ s.own.breakDue = false then
              (if s.own.params.lockLimit = 0 then none else some s.own.params.lockLimit)
            else s.own.lockTimer } }
      (¬ allowed → issue s c = failAccess gone c .regionDenied) ∧
      (allowed → odd → issue s c = failAccess gone c .misaligned) ∧
      (allowed → ¬ odd →
        (r.purpose ∉ [Purpose.write, .modifyWrite, .blockOut] → issue s c = begun none) ∧
        (r.purpose ∈ [Purpose.write, .modifyWrite, .blockOut] →
          (∀ v, r.value = some v → issue s c = begun (some v)) ∧
          (r.value = none →
            ((∀ e ∈ s.shadow, e.addr ≠ r.addr) → issue s c = failAccess gone c .shadowMiss) ∧
            ∀ e, s.shadow.find? (fun x => x.addr == r.addr) = some e →
              let unit (v : Value) : Value := if g.width = .w8 then v &&& 0xFF else v
              issue s c = begun (some (unit
                ((unit e.value &&& ~~~(StepRecord.clearMask st.bits)) ||| StepRecord.setMask st.bits))))))

/-- R7, R8, R61, R63, R74, R82, R97, R113 to R115, R119, R149: the steps a delivery starts, and what the end of a happening
brings about at the port. A delivery carries out the step it has started, and each step that the completion of that one starts,
before anything that follows it in R74; that no other happening does so is the model's choice, log entry 2. The steps a
happening released complete; choices too are that a channel's own steps come before the completion of those its SIGNAL
releases, and this before the breaks (log entry 36), and that those a break releases complete behind the region change (log
entry 35). While an access is in flight nothing more follows, and otherwise, in this order: a lock break that
waited, which the outcome may have made void; a preemption that waited; a region change that waited; and the service of the
port. -/
def Obligations.HappeningEnds : Prop :=
  (∀ (s : State) (c : ChanId),
    let starts : Prop := (s.chan c).st = .running ∧ ∃ sc st, InStep s c sc st ∧ st.progress = .fresh
    (starts → carrySteps s c = carrySteps (takeStep s c) c) ∧ (¬ starts → carrySteps s c = s)) ∧
  (∀ (s : State) (c : ChanId) (st : Step) (b : Bool), s.step? c = some st → st.progress = .released b → OnNoList s c →
    (∀ d st' b', d ≠ c → s.step? d = some st' → st'.progress ≠ .released b') →
    settle s = settle (completeStep (if b then s.warn c warnAttnSaturated else s) c)) ∧
  (∀ s : State, Quiescent s → s.arb.inflight.isSome = true → settle s = s) ∧
  (∀ s : State, Quiescent s → NothingWaits s → settle s = serve s) ∧
  ∀ s : State, Quiescent s → s.arb.inflight = none →
    (s.own.breakDue = true →
      (s.arb.lock = none → settle s = settle { s with own := { s.own with breakDue := false } }) ∧
      (∀ h k sc, s.arb.lock = some (h, k) → (s.chan h).script = some sc → OnNoList s h →
        let free : State := { s with
          arb := { s.arb with lock := none, presented := s.arb.presented.set h none },
          own := { s.own with breakDue := false, lockTimer := none } }
        (sc.ending = none → (s.chan h).st = .running ∨ (s.chan h).st = .pausing ∨ (s.chan h).st = .paused →
          settle s = settle (endScript free h .lockBroken (match sc.current with
            | some _ => sc.ordinals
            | none => sc.ordinals + 1) (match sc.current with
            | some st => (match st.progress with
              | .modWrite _ false => 0x80000000
              | .blockIn d _ _ => BitVec.ofNat 32 d
              | .blockOut d _ _ => BitVec.ofNat 32 d
              | _ => 0)
            | none => 0))) ∧
        ((s.chan h).st = .aborting → settle s = settle free))) ∧
    (s.own.breakDue = false → s.own.preemptDue = true → s.arb.lock = none → s.own.mode = .guest →
      let out (st : OwnState) : State := raiseEvent { s with own := { s.own with
        state := st, holdTimer := none, turnTimer := none, holdPassed := false, preemptDue := false } } .preempted 0 0
      (∀ m p, s.own.cmd = some (.setMode m p) → (∀ c, s.presentedOf c ≠ none → OnNoList s c) →
        settle s = settle (changeMode (out .released) m p)) ∧
      ((∀ m p, s.own.cmd ≠ some (.setMode m p)) →
        settle s = settle (out (if s.own.gnt = true ∨ ∀ c, s.presentedOf c = none then .released else .requesting)))) ∧
    (s.own.breakDue = false → s.own.preemptDue = false → ∀ id i (new : Option Region),
      s.admin.progress = .waiting id .region →
      (s.regionWait = some (.clear i) ∧ new = none ∨ ∃ g, s.regionWait = some (.set i g) ∧ new = some g) →
      let table := s.regions.set i new
      let keep : ShadowEntry → Bool := fun e =>
        shadowedAt table e.addr &&
          !(e.index == i && (match s.region i, new with
            | some old, some g => old.width != g.width
            | _, _ => false))
      settle s = settle (adminAnswer { s with regions := table, shadow := s.shadow.filter keep, regionWait := none } id .ok
        (BitVec.ofNat 32 (s.shadow.length - (s.shadow.filter keep).length))))

/-! ## Laws every step keeps -/

/-- R134 with R96 and R97: the law of the Shadow Store and of the Region Table is kept by every step. -/
def Obligations.StoreInvKept : Prop := ∀ s t : State, StoreInv s → step s = .next t → StoreInv t

/-- R68, R86, R104: the law of the port is kept by every step. -/
def Obligations.PortInvKept : Prop := ∀ s t : State, PortInv s → step s = .next t → PortInv t

/-- R3, R166: posted records and the reservation never exceed a channel's completion ring, after every step. -/
def Obligations.RingInvKept : Prop := ∀ s t : State, RingInv s → step s = .next t → RingInv t

/-- R149, R156: the pending counts and the sync counters stay in their ranges, after every step. -/
def Obligations.CountInvKept : Prop := ∀ s t : State, CountInv s → step s = .next t → CountInv t

/-- R12: a link stack holds at most six positions, and none after the script's end, after every step. -/
def Obligations.LinkInvKept : Prop := ∀ s t : State, LinkInv s → step s = .next t → LinkInv t

/-- R189: the holding set has at most one record of each pair, after every step. -/
def Obligations.HoldingInvKept : Prop := ∀ s t : State, HoldingInv s → step s = .next t → HoldingInv t

/-- The laws the six statements above keep hold after reset. -/
def Obligations.ResetMeetsLaws : Prop :=
  StoreInv State.reset ∧ PortInv State.reset ∧ RingInv State.reset ∧ CountInv State.reset ∧ LinkInv State.reset ∧
    HoldingInv State.reset

/-! ## Whole-machine rules -/

/-- R98, R99, R103: the Region Table changes only as a region change acts, by SET_REGION, by CLEAR_REGION or once the access
one waited for has ended, and at power-on. That a hot reset may end an access is the model's choice, log entry 21. -/
def Obligations.TableChangesOnly : Prop :=
  ∀ (i : Instr) (s t : State), exec i s = .next t → t.regions ≠ s.regions →
    (∃ r, i = .setRegion r) ∨ (∃ r, i = .clearRegion r) ∨ i = .powerOn ∨
      s.regionWait.isSome = true ∧ (s.arb.inflight.isSome = true →
        (∃ v, i = .accessDone v) ∨ (∃ v, i = .strobeEnd v) ∨ i = .targetError ∨ i = .readyTimeout ∨ i = .observedReset ∨
          i = .pulseEnd ∨ i = .powerOnInitialisationEnd ∨ i = .linkHotReset)

/-- R176, R203, R204, R206, R208, R210: READY changes only as a reset starts or ends, and ADMIN_BASE, the place of the admin
rings, only by its register and at a reset. -/
def Obligations.ReadyAndBaseChangeOnly : Prop :=
  ∀ (i : Instr) (s t : State), exec i s = .next t →
    (t.ready ≠ s.ready →
      (∃ b, i = .bridgeReset b) ∨ i = .linkHotReset ∨ i = .bridgeResetComplete ∨ i = .powerOn ∨
        i = .powerOnInitialisationEnd) ∧
    (t.admin.ring.sqBase ≠ s.admin.ring.sqBase →
      (∃ w, i = .adminBase w) ∨ i = .bridgeResetComplete ∨ i = .powerOn)

/-- R201: while READY is 0 no register write has an effect. -/
def Obligations.WritesIgnoredNotReady : Prop :=
  ∀ (s : State), s.ready = false →
    (∀ b, exec (.enable b) s = .next s) ∧ (∀ b, exec (.bridgeReset b) s = .next s) ∧
    (∀ w, exec (.adminBase w) s = .next s) ∧ (∀ w, exec (.intr w) s = .next s) ∧
    (∀ c w, exec (.channelQueueIndexWrite c w) s = .next s) ∧ (∀ w, exec (.adminQueueIndexWrite w) s = .next s) ∧
    (∀ w, exec (.eventQueueIndexWrite w) s = .next s)

/-! ## Admin commands -/

/-- R144, R179, R212, R214, 11.2: the common checks of an admin record. Byte 1 and the positions its command leaves unused are
0, the two addresses of PURGE_SHADOW under ALL among them, and a snapshot stays within the highest host address. A record that
fails them is answered INVALID_FIELD with detail 0 and changes nothing else; a code that names no command is answered
UNKNOWN_COMMAND with the code, no further field examined. The model's choices: that the highest host address is 2^64 - 1 (log
entry 7), and that a command is taken also where ADMIN_FAULT was set during its read (log entry 32). -/
def Obligations.CommonChecksRefuse : Prop :=
  (∀ (rec : Record32) (k : AdminCode),
    let zero (off size : Nat) : Prop := rec.extractLsb' (8 * off) (8 * size) = 0
    let fits (size : Nat) : Prop := (rec.extractLsb' 192 64).toNat + size ≤ 2 ^ 64
    AdminRecord.commonOk rec k = true ↔ zero 1 1 ∧ match k with
      | .configureChannel => rec.extractLsb' 41 7 = 0 ∧ zero 10 2
      | .startChannel => zero 5 27
      | .pauseChannel => zero 5 27
      | .abortChannel => zero 6 26
      | .releaseChannel => zero 5 27
      | .queryChannel => zero 5 19 ∧ fits 16
      | .setRegion => zero 22 10
      | .clearRegion => zero 5 27
      | .queryRegions => zero 4 20 ∧ fits 256
      | .setPortMode => zero 6 2 ∧ zero 24 8
      | .backplaneReset => zero 6 2 ∧ zero 12 20
      | .seedShadow => zero 4 4 ∧ zero 16 16
      | .purgeShadow => zero 5 3 ∧ zero 16 16 ∧ (zero 4 1 → zero 8 8)
      | .queryShadow => zero 4 20 ∧ fits 528
      | .setAttention => zero 7 25
      | .setSync => zero 5 3 ∧ zero 12 20
      | .configureEvents => zero 6 18) ∧
  ∀ (s : State) (rec : Record32) (a : HostAddr), s.admin.progress = .reading a → s.ready = true →
    (∀ k i, (k, i) ∈ adminCommands rec → AdminRecord.commonOk rec k = false →
      exec i s = .next (answered s rec .invalidField 0)) ∧
    exec (.unknownCommand rec) s = .next (answered s rec .unknownCommand ((AdminRecord.code rec).setWidth 32))

/-- R17: a channel number above 3 is answered INVALID_FIELD, and a refused state BAD_STATE with its code. In PAUSING and
ABORTING no command is taken (1.6). -/
def Obligations.ChannelCommandsRefuse : Prop :=
  ∀ (s : State) (rec : Record32) (k : AdminCode) (i : Instr), (k, i) ∈ channelCommands rec → Taken s rec k →
    (3 < AdminRecord.param rec 4 1 → exec i s = .next (answered s rec .invalidField 0)) ∧
    ∀ c st, Names s rec c st → accepts k st = false → st ≠ .pausing → st ≠ .aborting →
      exec i s = .next (answered s rec .badState (st.code.setWidth 32))

/-- R18, R175: CONFIGURE_CHANNEL gives a DISABLED channel its rings at index 0 with phase 1 and its settings, and leaves it
STOPPED; a field out of its range is refused. -/
def Obligations.ConfigureChannelActs : Prop :=
  ∀ (s : State) (rec : Record32) (c : ChanId), Taken s rec .configureChannel → Names s rec c .disabled →
    let sqBase := AdminRecord.host rec 16
    let cqBase := AdminRecord.host rec 24
    let sqSize := AdminRecord.param rec 6 2
    let cqSize := AdminRecord.param rec 8 2
    let limit := AdminRecord.param rec 12 4
    let good := sqBase.toNat % 64 = 0 ∧ cqBase.toNat % 64 = 0 ∧ (∃ j, 2 ≤ j ∧ j ≤ 10 ∧ sqSize = 2 ^ j) ∧
      (∃ j, 2 ≤ j ∧ j ≤ 10 ∧ cqSize = 2 ^ j) ∧ limit ≤ 16777215
    (good → exec (.configureChannel rec) s = .next (answered
      (s.setChan c { s.chan c with
        st := .stopped, grantLimit := limit, notifyAll := rec.getLsbD 40,
        rings := some { sqBase := sqBase, sqSize := sqSize, cqBase := cqBase, cqSize := cqSize, sqHead := 0, sqTail := 0,
                        cqHead := 0, cqTail := 0, unconsumed := 0, phase := true } }) rec .ok 0)) ∧
    (¬ good → exec (.configureChannel rec) s = .next (answered s rec .invalidField 0))

/-- R19: START_CHANNEL takes a STOPPED channel, or a PAUSED one with no script, to IDLE; with the script's completion write in
flight it waits. That an end fixed with its completion write still to start is met as one in flight is the model's choice, log
entry 27. -/
def Obligations.StartChannelActs : Prop :=
  ∀ (s : State) (rec : Record32) (c : ChanId) (r : RingPair), Taken s rec .startChannel →
    (s.chan c).rings = some r →
    (Names s rec c .stopped ∨ Names s rec c .paused ∧ (s.chan c).script = none →
      exec (.startChannel rec) s = .next (answered
        (s.setChan c { s.chan c with
          st := .idle,
          wait := if r.sqHead ≠ r.sqTail ∧ r.cqSize ≤ r.unconsumed + (if (s.chan c).reserved then 1 else 0)
            then .completionSpace else .none }) rec .ok 0)) ∧
    (∀ sc e, Names s rec c .paused → (s.chan c).script = some sc → sc.ending = some e →
      exec (.startChannel rec) s =
        .next ((headPast s).setProgressA (.waiting (AdminRecord.id rec) (.start c))))

/-- R24, R38, R42 to R54, R58 to R62: a paused script resumes in RUNNING. Between steps, its window empty and no fetch in
flight, it fetches four records from the list position, and otherwise it starts the next step. Inside a step the step takes the
action it stopped before: it presents its access again as attempt 1, writes a kept value to host memory, reads its slot, or
begins its wait again with its full values, a POLL with its full tries; and a fetch starts where it may. That a read half whose
request was withdrawn decides its diversion anew is the model's choice, log entry 29, and that a next address past 0xFFFFFF
fails here is log entry 15. -/
def Obligations.StartChannelResumes : Prop :=
  (∀ (s : State) (rec : Record32) (c : ChanId) (sc : Script), Taken s rec .startChannel → Names s rec c .paused →
    (s.chan c).script = some sc → sc.ending = none →
    let resumed : State := (headPast s).setChan c { s.chan c with st := .running, wait := .none }
    let starts (t : State) : Prop :=
      exec (.startChannel rec) s = .next (settle (adminAnswer (startFetch t c) (AdminRecord.id rec) .ok 0))
    (sc.checked = true → sc.current = none → sc.window = [] → (s.chan c).fetch = none →
      exec (.startChannel rec) s = .next (settle (answered
        (s.setChan c { s.chan c with
          st := .running, wait := .fetch, fetch := some { addr := sc.listPos, count := 4, discard := false } }) rec .ok 0))) ∧
    (sc.current = none → starts (startNext resumed c)) ∧
    ∀ st, sc.current = some st →
      ((∀ n v, st.progress ≠ .poll n v) → starts (act resumed c)) ∧
      ∀ n v, st.progress = .poll n v → starts (act (resumed.setProgress c (.poll (StepRecord.tries st.bits) 0)) c)) ∧
  ∀ (s : State) (c : ChanId) (sc : Script) (st : Step), InStep s c sc st →
    let a := StepRecord.addr st.bits
    let host := StepRecord.hostAddr st.bits
    let presents (t : State) (p : Progress) (purpose : Purpose) (addr : BusAddr) (v : Option Value) (d : Detail) : State :=
      if s.own.mode = .isolated then endScript t c .portIsolated sc.ordinals d
      else joinSet t c (request s c { st with progress := p } purpose addr v)
    let moves (t : State) (w : WaitReason) (d : Data) : State := t.setChan c { t.chan c with wait := w, data := some d }
    let bytes (v : Value) : List Byte := [v.extractLsb' 0 8, v.extractLsb' 8 8]
    let formed (v : Value) : Value := (v &&& ~~~(StepRecord.clearMask st.bits)) ||| StepRecord.setMask st.bits
    let diverted (shown : State) (served : Value → State) : Prop :=
      ((∀ i g, lookup s.regions a = some (i, g) → g.rights ≠ .writeOnlyShadowed) → act s c = shown) ∧
      ∀ i g, lookup s.regions a = some (i, g) → g.rights = .writeOnlyShadowed →
        (g.width = .w16 → a.toNat % 2 = 1 → act s c = endScript s c .misaligned sc.ordinals (a.setWidth 32)) ∧
        (g.width = .w8 ∨ a.toNat % 2 = 0 →
          ((∀ x ∈ s.shadow, x.addr ≠ a) → act s c = endScript s c .shadowMiss sc.ordinals (a.setWidth 32)) ∧
          ∀ e, s.shadow.find? (fun x => x.addr == a) = some e →
            act s c = served (if g.width = .w8 then e.value &&& 0xFF else e.value))
    (st.progress = .fresh → act s c = s) ∧
    (st.progress = .write →
      act s c = presents s .write .write a (some (StepRecord.value st.bits)) (a.setWidth 32)) ∧
    (st.progress = .read → diverted (presents s .read .read a none (a.setWidth 32)) fun v =>
      moves (s.setProgress c (.readValue v)) .hostWrite (.readWrite { addr := host, bytes := bytes v })) ∧
    (∀ v, st.progress = .readValue v →
      act s c = moves s .hostWrite (.readWrite { addr := host, bytes := bytes v })) ∧
    (st.progress = .modRead → diverted (presents s .modRead .modifyRead a none (a.setWidth 32)) fun _ =>
      presents (s.setProgress c (.modWrite none false)) (.modWrite none false) .modifyWrite a none (a.setWidth 32)) ∧
    (∀ kept b, st.progress = .modWrite kept b →
      act s c = presents s (.modWrite kept b) .modifyWrite a (kept.map formed) (a.setWidth 32)) ∧
    (∀ n v, st.progress = .poll n v → act s c = presents s (.poll n v) .pollTry a none (a.setWidth 32)) ∧
    (∀ d next, st.progress = .blockIn d next none →
      (next ≤ 0xFFFFFF → act s c =
        presents s (.blockIn d next none) .blockIn (BitVec.ofNat 24 next) none (BitVec.ofNat 32 d)) ∧
      (0xFFFFFF < next → act s c = endScript s c .regionMiss sc.ordinals (BitVec.ofNat 32 d))) ∧
    (∀ d next v, st.progress = .blockIn d next (some v) →
      act s c = moves s .hostWrite (.slotWrite { addr := hostAdd host (2 * d), bytes := bytes v })) ∧
    (∀ d next, st.progress = .blockOut d next none →
      (next ≤ 0xFFFFFF → act s c = moves s .fetch (.slotRead (hostAdd host (2 * d)))) ∧
      (0xFFFFFF < next → act s c = endScript s c .regionMiss sc.ordinals (BitVec.ofNat 32 d))) ∧
    (∀ d next v, st.progress = .blockOut d next (some v) → act s c =
      presents s (.blockOut d next (some v)) .blockOut (BitVec.ofNat 24 next) (some v) (BitVec.ofNat 32 d)) ∧
    (st.progress = .waiting →
      let k := StepRecord.index st.bits
      let count := StepRecord.count st.bits
      let timeout : Option Time :=
        if StepRecord.timeout st.bits = 0 then none else some (s.timebase + StepRecord.timeout st.bits)
      (StepRecord.kind st.bits = some .delay →
        act s c = s.setChan c { s.chan c with wait := .timer, timer := some count }) ∧
      (StepRecord.kind st.bits = some .await →
        let consume := StepRecord.consume st.bits
        let met := count ≤ (s.counter k).value ∧ (consume = true → ∀ w ∈ (s.counter k).waiters, w.consume = false)
        (met → act s c = completeStep (if consume then
          s.setCounter k { s.counter k with value := (s.counter k).value - count } else s) c) ∧
        (¬ met → act s c = (s.setCounter k { s.counter k with
          waiters := (s.counter k).waiters ++ [{ chan := c, threshold := count, consume := consume, timeout := timeout }] }
          ).setWait c .sync)) ∧
      (StepRecord.kind st.bits = some .attend →
        let l := s.line k
        let joins : State :=
          (s.setLine k { l with waiters := l.waiters ++ [{ chan := c, timeout := timeout }] }).setWait c .attention
        (l.mode = .off ∨ l.route = .event → act s c = endScript s c .attnNotRouted sc.ordinals 0) ∧
        (l.mode = .edge → l.route = .wait → l.count = 0 → act s c = joins) ∧
        (l.mode = .edge → l.route = .wait → l.count ≠ 0 →
          let t := s.setLine k { l with count := l.count - 1, saturated := false }
          act s c = completeStep (if l.saturated then t.warn c warnAttnSaturated else t) c) ∧
        (l.mode = .level → l.route = .wait → l.level = true → act s c = completeStep s c) ∧
        (l.mode = .level → l.route = .wait → l.level = false → act s c = joins)))

/-- R20, R21, R80: PAUSE_CHANNEL holds an IDLE channel at once. In RUNNING the channel is PAUSING, its request withdrawn, its
timer stopped and its wait cut off, a consumer's departure being followed by an examination; it is PAUSED at once when nothing
of it is in flight, and otherwise names what is. The order in which it names several is the model's choice, log entry 10. -/
def Obligations.PauseChannelActs : Prop :=
  ∀ (s : State) (rec : Record32) (c : ChanId), Taken s rec .pauseChannel →
    let stopping : State := ((headPast s).setProgressA (.waiting (AdminRecord.id rec) (.pause c))).setChan c
      { s.chan c with st := .pausing, timer := none }
    (Names s rec c .idle → exec (.pauseChannel rec) s =
      .next (answered (s.setChan c { s.chan c with st := .paused, wait := .none }) rec .ok 0)) ∧
    (Names s rec c .paused → exec (.pauseChannel rec) s = .next (answered s rec .ok 0)) ∧
    (Names s rec c .running →
      (∀ t, CutOff (stopping.setPresented c none) c t → exec (.pauseChannel rec) s = .next (settle (goOn t c))) ∧
      (OnNoList s c → s.presentedOf c = none →
        (s.accessOf c = true → exec (.pauseChannel rec) s = .next (settle (stopping.setWait c .access))) ∧
        (quiet s c = true → exec (.pauseChannel rec) s = .next (settle (answered
          (s.setChan c { s.chan c with st := .paused, wait := .none, timer := none }) rec .ok 0)))))

/-- R25, R26, R80: ABORT_CHANNEL in CURRENT mode. The channel is ABORTING, its request withdrawn, its timer stopped and its
wait cut off; the script ends with ABORTED at once when nothing of the channel is in flight, and otherwise once nothing is. It
waits for a completion write already under way, and changes nothing where no script is active. A mode byte that is neither
CURRENT nor FLUSH is refused. The model's choices: that an end fixed with its completion write still to start is met as one
under way (log entry 27), that the mode byte decides whichever row carries the record (log entry 19), and which of several
transfers in flight the wait reason names (log entry 10). -/
def Obligations.AbortChannelActs : Prop :=
  ∀ (s : State) (rec : Record32) (c : ChanId) (st : ChanState), Taken s rec .abortChannel → Names s rec c st →
    (1 < AdminRecord.param rec 5 1 → accepts .abortChannel st = true →
      exec (.abortChannel rec) s = .next (answered s rec .invalidField 0) ∧
      exec (.abortChannelFlush rec) s = .next (answered s rec .invalidField 0)) ∧
    (AdminRecord.param rec 5 1 = 0 →
    (st = .running ∨ st = .paused → Unended s c →
      let s' := ((headPast s).setProgressA (.waiting (AdminRecord.id rec) (.abort c))).setChan c
        { s.chan c with st := .aborting, timer := none, abort := some (.current (st == .paused)) }
      (∀ t, CutOff (s'.setPresented c none) c t → exec (.abortChannel rec) s = .next (settle (goOn t c))) ∧
      (OnNoList s c → s.presentedOf c = none →
        (s.accessOf c = true → exec (.abortChannel rec) s = .next (settle (s'.setWait c .access))) ∧
        (quiet s c = true →
          exec (.abortChannel rec) s = .next (settle (endScript s' c .aborted (ordinalNow s c) (unitsDone s c)))))) ∧
    (st = .running ∨ st = .paused → (∃ sc e, (s.chan c).script = some sc ∧ sc.ending = some e) →
      exec (.abortChannel rec) s = .next ((headPast s).setProgressA (.waiting (AdminRecord.id rec) (.abort c)))) ∧
    (st = .idle ∨ st = .stopped ∨ st = .paused → (s.chan c).script = none →
      exec (.abortChannel rec) s = .next (answered s rec .ok 0)))

/-- R27, R80: ABORT_CHANNEL in FLUSH mode. With no active script: at the boundary the channel is STOPPED and the command
completes with 0 requests flushed, and otherwise the first request is read once a completion slot is free. An active script
ends first, as in CURRENT mode, its request withdrawn and its wait cut off. The model's choices: that an end fixed with its
completion write still to start is met as one under way (log entry 27), and which of several transfers in flight the wait
reason names (log entry 10). -/
def Obligations.AbortFlushActs : Prop :=
  ∀ (s : State) (rec : Record32) (c : ChanId) (st : ChanState) (r : RingPair), Taken s rec .abortChannel →
    Names s rec c st → AdminRecord.param rec 5 1 = 1 → (s.chan c).rings = some r →
    let s' := (headPast s).setProgressA (.waiting (AdminRecord.id rec) (.flush c))
    let ch := { s.chan c with st := .aborting, wait := .none, abort := some (.flush r.sqTail 0) }
    (st = .idle ∨ st = .stopped ∨ st = .paused → (s.chan c).script = none →
      (r.sqHead = r.sqTail → exec (.abortChannelFlush rec) s = .next
        (answered (s.setChan c { s.chan c with st := .stopped, wait := .none, abort := none }) rec .ok 0)) ∧
      (r.sqHead ≠ r.sqTail → r.unconsumed + (if (s.chan c).reserved then 1 else 0) < r.cqSize →
        exec (.abortChannelFlush rec) s = .next (s'.setChan c
          { ch with wait := .fetch, reserved := true, data := some (.flushRead (hostAdd r.sqBase (32 * r.sqHead))) })) ∧
      (r.sqHead ≠ r.sqTail → r.cqSize ≤ r.unconsumed + (if (s.chan c).reserved then 1 else 0) → s.accessOf c = false →
        (s.chan c).data = none → exec (.abortChannelFlush rec) s = .next (s'.setChan c
          { ch with wait := if (s.chan c).fetch.isSome then .fetch else .none }))) ∧
    (st = .running ∨ st = .paused →
      (Unended s c →
        let t := s'.setChan c { s.chan c with st := .aborting, timer := none, abort := some (.flush r.sqTail 0) }
        (∀ u, CutOff (t.setPresented c none) c u → exec (.abortChannelFlush rec) s = .next (settle (goOn u c))) ∧
        (OnNoList s c → s.presentedOf c = none →
          (s.accessOf c = true → exec (.abortChannelFlush rec) s = .next (settle (t.setWait c .access))) ∧
          (quiet s c = true →
            exec (.abortChannelFlush rec) s = .next (settle (endScript t c .aborted (ordinalNow s c) (unitsDone s c)))))) ∧
      ((∃ sc e, (s.chan c).script = some sc ∧ sc.ending = some e) →
        exec (.abortChannelFlush rec) s = .next (s'.setChan c { s.chan c with abort := some (.flush r.sqTail 0) })))

/-- R29, R175: RELEASE_CHANNEL forgets a STOPPED or FAULTED channel once nothing of it is in flight. -/
def Obligations.ReleaseChannelActs : Prop :=
  ∀ (s : State) (rec : Record32) (c : ChanId), Taken s rec .releaseChannel →
    Names s rec c .stopped ∨ Names s rec c .faulted →
    (quiet s c = true → exec (.releaseChannel rec) s = .next (answered (s.setChan c Channel.reset) rec .ok 0)) ∧
    (quiet s c = false → exec (.releaseChannel rec) s =
      .next ((headPast s).setProgressA (.waiting (AdminRecord.id rec) (.release c))))

/-- R30, R101, R145, R214, 11.4: a query takes its snapshot as the command is taken and writes it at an address that is a
multiple of 16, in one transfer of 16 bytes, 256 bytes, or 16 bytes and 8 for each entry. The bytes of a channel, of each
region entry and of each shadow entry stand at their offsets, numbers least significant byte first. -/
def Obligations.QueriesSnapshot : Prop :=
  (∀ ch : Channel,
    let active : Bool := ch.script.any fun sc => sc.tagValid
    let tag : BitVec 16 := if active then (ch.script.elim 0 fun sc => sc.tag) else 0
    let executed : Nat := ch.script.elim 0 fun sc => sc.executed
    let head : Nat := ch.rings.elim 0 fun r => r.sqHead
    let tail : Nat := ch.rings.elim 0 fun r => r.cqTail
    channelBytes ch =
      [ch.st.code, ch.wait.code, (if active then 1 else 0) ||| (if ch.reserved then 2 else 0),
       BitVec.ofNat 8 (ch.script.elim 0 fun sc => sc.links.length), tag.extractLsb' 0 8, tag.extractLsb' 8 8,
       BitVec.ofNat 8 head, BitVec.ofNat 8 (head / 256), BitVec.ofNat 8 tail, BitVec.ofNat 8 (tail / 256), 0, 0,
       BitVec.ofNat 8 executed, BitVec.ofNat 8 (executed / 256), BitVec.ofNat 8 (executed / 65536),
       BitVec.ofNat 8 (executed / 16777216)]) ∧
  (∀ (t : Vector (Option Region) 16) (i : RegionId),
    ((regionsBytes t).drop (16 * i.val)).take 16 = match t[i] with
      | none => List.replicate 16 0
      | some g =>
        [1, (match g.width with
           | .w8 => 8
           | .w16 => 16), g.rights.code, g.readyMode.code, g.base.extractLsb' 0 8, g.base.extractLsb' 8 8,
         g.base.extractLsb' 16 8, BitVec.ofNat 8 g.retries, BitVec.ofNat 8 g.pages, BitVec.ofNat 8 (g.pages / 256),
         BitVec.ofNat 8 (g.pages / 65536), BitVec.ofNat 8 g.setup, BitVec.ofNat 8 g.strobe, BitVec.ofNat 8 g.hold,
         BitVec.ofNat 8 g.timeout, BitVec.ofNat 8 (g.timeout / 256)]) ∧
  (∀ es : List ShadowEntry,
    (shadowBytes es).take 16 =
      [BitVec.ofNat 8 es.length, BitVec.ofNat 8 (es.length / 256), 0, 0, 0, 0, 0, 0, 0, 0, 0, 0, 0, 0, 0, 0] ∧
    ∀ (k : Nat) (e : ShadowEntry), es[k]? = some e → ((shadowBytes es).drop (16 + 8 * k)).take 8 =
      [e.addr.extractLsb' 0 8, e.addr.extractLsb' 8 8, e.addr.extractLsb' 16 8, BitVec.ofNat 8 e.index.val,
       e.value.extractLsb' 0 8, e.value.extractLsb' 8 8, 0, 0]) ∧
  ∀ (s : State) (rec : Record32),
    let at24 := AdminRecord.host rec 24
    let write (d : Detail) (bytes : List Byte) : State :=
      (headPast s).setProgressA (.snapshot (AdminRecord.id rec) d { addr := at24, bytes := bytes })
    (at24.toNat % 16 = 0 →
      (∀ c st, Taken s rec .queryChannel → Names s rec c st →
        exec (.queryChannel rec) s = .next (write 0 (channelBytes (s.chan c)))) ∧
      (Taken s rec .queryRegions →
        exec (.queryRegions rec) s = .next (write 0 (regionsBytes s.regions)) ∧ (regionsBytes s.regions).length = 256) ∧
      (Taken s rec .queryShadow →
        exec (.queryShadow rec) s = .next (write (BitVec.ofNat 32 s.shadow.length) (shadowBytes s.shadow)) ∧
          (shadowBytes s.shadow).length = 16 + 8 * s.shadow.length)) ∧
    (at24.toNat % 16 ≠ 0 →
      (∀ c st, Taken s rec .queryChannel → Names s rec c st →
        exec (.queryChannel rec) s = .next (answered s rec .invalidField 0)) ∧
      (Taken s rec .queryRegions → exec (.queryRegions rec) s = .next (answered s rec .invalidField 0)) ∧
      (Taken s rec .queryShadow → exec (.queryShadow rec) s = .next (answered s rec .invalidField 0)))

/-- R95 to R98: SET_REGION replaces its entry and purges the store, waits for an access in flight on its index, and refuses a
window that overlaps another with the lowest index it would overlap. -/
def Obligations.SetRegionActs : Prop :=
  ∀ (s : State) (rec : Record32) (i : RegionId) (g : Region), Taken s rec .setRegion →
    AdminRecord.param rec 4 1 = i.val → regionOf rec = some g →
    let table := s.regions.set i (some g)
    let keep : ShadowEntry → Bool := fun e =>
      shadowedAt table e.addr &&
        !(e.index == i && (match s.region i with
          | some old => old.width != g.width
          | none => false))
    ((∀ j h, j ≠ i → s.region j = some h → h.overlaps g = false) →
      ((∀ f, s.arb.inflight = some f → f.index ≠ i) → exec (.setRegion rec) s = .next (answered
        { s with regions := table, shadow := s.shadow.filter keep, regionWait := none } rec .ok
        (BitVec.ofNat 32 (s.shadow.length - (s.shadow.filter keep).length)))) ∧
      (∀ f, s.arb.inflight = some f → f.index = i → exec (.setRegion rec) s = .next
        { (headPast s).setProgressA (.waiting (AdminRecord.id rec) .region) with regionWait := some (.set i g) })) ∧
    (∀ j h, j ≠ i → s.region j = some h → h.overlaps g = true →
      (∀ k h', k ≠ i → k < j → s.region k = some h' → h'.overlaps g = false) →
      exec (.setRegion rec) s = .next (answered s rec .overlap (BitVec.ofNat 32 j.val)))

/-- R95: a SET_REGION record gives an entry exactly when every field is in its range, and the entry then holds those fields. A
record that gives none, or an index above 15, is refused. -/
def Obligations.SetRegionFields : Prop :=
  ∀ rec : Record32,
    (∀ g, regionOf rec = some g →
      g.base.toNat = AdminRecord.param rec 8 4 ∧ g.pages = AdminRecord.param rec 12 4 ∧
      g.width.bits = AdminRecord.param rec 5 1 ∧ g.rights.code.toNat = AdminRecord.param rec 6 1 ∧
      g.readyMode.code.toNat = AdminRecord.param rec 7 1 ∧ g.setup = AdminRecord.param rec 16 1 ∧
      g.strobe = AdminRecord.param rec 17 1 ∧ g.hold = AdminRecord.param rec 18 1 ∧
      g.retries = AdminRecord.param rec 19 1 ∧ g.timeout = AdminRecord.param rec 20 2) ∧
    ((∃ g, regionOf rec = some g) ↔
      (AdminRecord.param rec 5 1 = 8 ∨ AdminRecord.param rec 5 1 = 16) ∧ AdminRecord.param rec 6 1 ≤ 3 ∧
      AdminRecord.param rec 7 1 ≤ 1 ∧ AdminRecord.param rec 8 4 % 256 = 0 ∧ 1 ≤ AdminRecord.param rec 12 4 ∧
      AdminRecord.param rec 8 4 + 256 * AdminRecord.param rec 12 4 ≤ 0x1000000 ∧ AdminRecord.param rec 16 1 ≤ 7 ∧
      1 ≤ AdminRecord.param rec 17 1 ∧ AdminRecord.param rec 17 1 ≤ 15 ∧ AdminRecord.param rec 18 1 ≤ 7 ∧
      AdminRecord.param rec 19 1 ≤ 3 ∧ 1 ≤ AdminRecord.param rec 20 2 ∧ AdminRecord.param rec 20 2 ≤ 4095) ∧
    ∀ s : State, Taken s rec .setRegion → regionOf rec = none ∨ 15 < AdminRecord.param rec 4 1 →
      exec (.setRegion rec) s = .next (answered s rec .invalidField 0)

/-- R99: CLEAR_REGION makes a valid entry invalid and purges the store, leaves an invalid one as it is, and refuses an index
above 15. -/
def Obligations.ClearRegionActs : Prop :=
  ∀ (s : State) (rec : Record32), Taken s rec .clearRegion →
    (15 < AdminRecord.param rec 4 1 → exec (.clearRegion rec) s = .next (answered s rec .invalidField 0)) ∧
    ∀ i : RegionId, AdminRecord.param rec 4 1 = i.val →
    let table := s.regions.set i none
    let keep : ShadowEntry → Bool := fun e => shadowedAt table e.addr
    (s.region i = none → exec (.clearRegion rec) s = .next (answered s rec .ok 0)) ∧
    (∀ g, s.region i = some g →
      ((∀ f, s.arb.inflight = some f → f.index ≠ i) → exec (.clearRegion rec) s = .next (answered
        { s with regions := table, shadow := s.shadow.filter keep, regionWait := none } rec .ok
        (BitVec.ofNat 32 (s.shadow.length - (s.shadow.filter keep).length)))) ∧
      (∀ f, s.arb.inflight = some f → f.index = i → exec (.clearRegion rec) s = .next
        { (headPast s).setProgressA (.waiting (AdminRecord.id rec) .region) with regionWait := some (.clear i) }))

/-- R123: a SET_PORT_MODE to the current mode takes the four parameters at once and completes with OK; it does not wait, the
ownership state does not change, the change limit is not used, and running timers keep their limits. A field out of its range
is refused with INVALID_FIELD, detail 0, whatever the mode. -/
def Obligations.SetPortModeSame : Prop :=
  ∀ (s : State) (rec : Record32), Taken s rec .setPortMode →
    let good := AdminRecord.param rec 4 1 ≤ 2 ∧ AdminRecord.param rec 5 1 ≤ 15 ∧ AdminRecord.param rec 8 4 ≤ 16777215 ∧
      AdminRecord.param rec 12 4 ≤ 65535 ∧ AdminRecord.param rec 16 4 ≤ 16777215 ∧ AdminRecord.param rec 20 4 ≤ 16777215
    (¬ good → exec (.setPortMode rec) s = .next (answered s rec .invalidField 0)) ∧
    (good → AdminRecord.param rec 4 1 = s.own.mode.code → exec (.setPortMode rec) s = .next (answered
      { s with own := { s.own with params :=
        { turnaround := AdminRecord.param rec 5 1, leaseLimit := AdminRecord.param rec 8 4,
          lockLimit := AdminRecord.param rec 12 4, holdLimit := AdminRecord.param rec 16 4 } } } rec .ok 0))

/-- R75, R110, R116, R124, R125, R126: SET_PORT_MODE to another mode. It acts at once from ISOLATED and from a GUEST's RELEASED
and REQUESTING; elsewhere it waits, its change timer running unless the limit is 0, and acts at a yield point at which no REQ
is pending. A change takes the parameters and stops the old mode's timers, and every request presented fails with
PORT_ISOLATED. MASTER is entered GRANTED with the lease timer when REQ is high, and otherwise SETTLING, or HOLDING at
turnaround 0; GUEST is entered RELEASED, where a presented request asks for the bus. A change between MASTER and GUEST passes
through ISOLATED for the turnaround. The model's choices: a passage at turnaround 0 ends at once (log entry 12), and a command
taken in a passage supersedes it (log entry 16). -/
def Obligations.SetPortModeChanges : Prop :=
  (∀ (s : State) (m : PortMode) (p : PortParams) (id : BitVec 16), s.admin.progress = .waiting id .portMode →
    let turn := p.turnaround
    let lease : Option Nat := if p.leaseLimit = 0 then none else some p.leaseLimit
    let own : Ownership := { s.own with params := p, cmd := none, changeTimer := none, passage := none }
    let gone : State := [(0 : ChanId), 1, 2, 3].foldl
      (fun t c => if t.presentedOf c = none then t else failAccess (t.setPresented c none) c .portIsolated)
      { s with own := { own with
        mode := .isolated, state := .isolated, turnTimer := none, leaseTimer := none, lockTimer := none, holdTimer := none,
        holdPassed := false } }
    let through (o : Ownership) : State := adminAnswer
      { gone with own := { o with passage := none, turnTimer := none, answers := false } } id .ok 0
    (s.own.mode = .isolated → m = .master → changeMode s m p = adminAnswer { s with own :=
      if s.own.req then { own with mode := .master, state := .granted, turnTimer := none, leaseTimer := lease }
      else if turn = 0 then
        { own with mode := .master, state := .holding, turnTimer := none, holdPassed := false, holdTimer := none }
      else { own with mode := .master, state := .settling, turnTimer := some turn } } id .ok 0) ∧
    (s.own.mode = .isolated → m = .guest → changeMode s m p = adminAnswer { s with own := { own with
      mode := .guest, turnTimer := none,
      state := if s.own.gnt = true ∨ ∀ c, s.presentedOf c = none then .released else .requesting } } id .ok 0) ∧
    (s.own.mode ≠ .isolated →
      (m = .isolated → changeMode s m p = adminAnswer gone id .ok 0) ∧
      (m ≠ .isolated → turn ≠ 0 → changeMode s m p =
        { gone with own := { gone.own with passage := some m, answers := true, turnTimer := some turn } }) ∧
      (m = .master → turn = 0 → changeMode s m p = through
        (if s.own.req then { gone.own with mode := .master, state := .granted, leaseTimer := lease }
         else { gone.own with mode := .master, state := .holding })) ∧
      (m = .guest → turn = 0 → changeMode s m p = through { gone.own with mode := .guest, state := .released }))) ∧
  ∀ (s : State) (rec : Record32), Taken s rec .setPortMode → AdminRecord.param rec 5 1 ≤ 15 →
    AdminRecord.param rec 8 4 ≤ 16777215 → AdminRecord.param rec 12 4 ≤ 65535 → AdminRecord.param rec 16 4 ≤ 16777215 →
    AdminRecord.param rec 20 4 ≤ 16777215 → ∀ m, AdminRecord.param rec 4 1 = PortMode.code m → m ≠ s.own.mode →
    let lease := AdminRecord.param rec 8 4
    let limit := AdminRecord.param rec 20 4
    let params : PortParams :=
      { turnaround := AdminRecord.param rec 5 1, leaseLimit := lease, lockLimit := AdminRecord.param rec 12 4,
        holdLimit := AdminRecord.param rec 16 4 }
    let taken : State := (headPast s).setProgressA (.waiting (AdminRecord.id rec) .portMode)
    let waits : State := { taken with own := { s.own with
      cmd := some (.setMode m params), changeTimer := if limit = 0 then none else some limit } }
    let own := { s.own with cmd := none, changeTimer := none, passage := none, turnTimer := none, params := params }
    let free : Prop := s.own.mode = .isolated ∨ s.own.mode = .guest ∧ (s.own.state = .released ∨ s.own.state = .requesting)
    (free → exec (.setPortMode rec) s = .next (settle (changeMode taken m params))) ∧
    (¬ free → exec (.setPortMode rec) s = .next (settle waits)) ∧
    (Quiescent s → NothingWaits s →
      (¬ free → YieldPoint s → ¬ (s.own.mode = .master ∧ s.own.req = true) →
        exec (.setPortMode rec) s = .next (serve (changeMode waits m params))) ∧
      (¬ free → s.own.state ≠ .holding ∨ s.arb.inflight.isSome = true ∨ s.own.brst = true →
        exec (.setPortMode rec) s = .next waits) ∧
      (s.own.mode = .isolated → m = .master → s.own.req = true ∨ 1 ≤ AdminRecord.param rec 5 1 →
        exec (.setPortMode rec) s = .next (answered
          { s with own :=
            if s.own.req then
              { own with mode := .master, state := .granted, leaseTimer := if lease = 0 then none else some lease }
            else { own with mode := .master, state := .settling, turnTimer := some (AdminRecord.param rec 5 1) } } rec .ok 0)) ∧
      (s.own.mode = .isolated → m = .guest → (∀ c, s.presentedOf c = none) →
        exec (.setPortMode rec) s = .next (answered
          { s with own := { own with mode := .guest, state := .released } } rec .ok 0)) ∧
      (s.own.mode = .guest → s.own.state = .released → m = .isolated → (∀ c, s.presentedOf c = none) →
        exec (.setPortMode rec) s = .next (answered
          { s with own := { own with
            mode := .isolated, state := .isolated, leaseTimer := none, lockTimer := none, holdTimer := none,
            holdPassed := false } } rec .ok 0)))

/-- R127, R128: BACKPLANE_RESET in MASTER mode waits for a yield point with no REQ pending, its change timer running unless the
limit is 0, and there pulses BRST; in the other modes it is refused with NOT_PERMITTED and the code of the mode, and with a
width outside 1..1000 or a limit out of its range with INVALID_FIELD. That the ranges are judged before the mode is the model's
choice, log entry 30. -/
def Obligations.BackplaneResetActs : Prop :=
  ∀ (s : State) (rec : Record32), Taken s rec .backplaneReset →
    let width := AdminRecord.param rec 4 2
    let good := 1 ≤ width ∧ width ≤ 1000 ∧ AdminRecord.param rec 8 4 ≤ 16777215
    let waits : State := { (headPast s).setProgressA (.waiting (AdminRecord.id rec) .pulse) with own := { s.own with
      cmd := some (.reset width),
      changeTimer := if AdminRecord.param rec 8 4 = 0 then none else some (AdminRecord.param rec 8 4) } }
    (¬ good → exec (.backplaneReset rec) s = .next (answered s rec .invalidField 0)) ∧
    (good → s.own.mode ≠ .master → exec (.backplaneReset rec) s =
      .next (answered s rec .notPermitted (BitVec.ofNat 32 s.own.mode.code))) ∧
    (good → s.own.mode = .master →
      exec (.backplaneReset rec) s = .next (settle waits) ∧
      (Quiescent s → NothingWaits s →
        (YieldPoint s → s.own.req = false → exec (.backplaneReset rec) s = .next
          { (headPast s).setProgressA (.waiting (AdminRecord.id rec) .pulse) with own := { s.own with
            state := .pulsing, pulseTimer := some width, cmd := none, changeTimer := none, answers := true } }) ∧
        (s.own.state ≠ .holding ∨ s.arb.inflight.isSome = true ∨ s.own.brst = true →
          exec (.backplaneReset rec) s = .next waits)))

/-- R142, R143: SEED_SHADOW gives an address of a shadowed window its value: the entry held takes it in place, a new entry
joins behind the others, and a full store without the address refuses with NO_SPACE. An address of no window, or above
0xFFFFFF, is refused. -/
def Obligations.SeedShadowActs : Prop :=
  ∀ (s : State) (rec : Record32), Taken s rec .seedShadow →
    let a : BusAddr := BitVec.ofNat 24 (AdminRecord.param rec 8 4)
    let v : Value := BitVec.ofNat 16 (AdminRecord.param rec 12 4)
    (0xFFFFFF < AdminRecord.param rec 8 4 ∨ lookup s.regions a = none →
      exec (.seedShadow rec) s = .next (answered s rec .invalidField 0)) ∧
    ∀ (i : RegionId) (g : Region), AdminRecord.param rec 8 4 ≤ 0xFFFFFF → AdminRecord.param rec 12 4 ≤ 0xFFFF →
    lookup s.regions a = some (i, g) →
    let good := g.rights = .writeOnlyShadowed ∧ (g.width = .w16 → a.toNat % 2 = 0) ∧ (g.width = .w8 → v.toNat ≤ 0xFF)
    (¬ good → exec (.seedShadow rec) s = .next (answered s rec .invalidField 0)) ∧
    (good → (∃ e ∈ s.shadow, e.addr = a) → exec (.seedShadow rec) s = .next (answered
      { s with shadow := s.shadow.map fun e => if e.addr = a then { e with value := v } else e } rec .ok
      (BitVec.ofNat 32 s.shadow.length))) ∧
    (good → (∀ e ∈ s.shadow, e.addr ≠ a) → s.shadow.length < 64 → exec (.seedShadow rec) s = .next (answered
      { s with shadow := s.shadow ++ [{ addr := a, value := v, index := i }] } rec .ok
      (BitVec.ofNat 32 (s.shadow.length + 1)))) ∧
    (good → (∀ e ∈ s.shadow, e.addr ≠ a) → 64 ≤ s.shadow.length →
      exec (.seedShadow rec) s = .next (answered s rec .noSpace 64))

/-- R144: PURGE_SHADOW removes every entry under ALL, and under RANGE every entry whose address lies from the first address to
the last; the detail is the number removed. -/
def Obligations.PurgeShadowActs : Prop :=
  ∀ (s : State) (rec : Record32), Taken s rec .purgeShadow →
    let scope := AdminRecord.param rec 4 1
    let first := AdminRecord.param rec 8 4
    let last := AdminRecord.param rec 12 4
    let kept := s.shadow.filter fun e => e.addr.toNat < first || last < e.addr.toNat
    (scope = 0 → exec (.purgeShadow rec) s =
      .next (answered { s with shadow := [] } rec .ok (BitVec.ofNat 32 s.shadow.length))) ∧
    (scope = 1 → first ≤ last → last ≤ 0xFFFFFF → exec (.purgeShadow rec) s =
      .next (answered { s with shadow := kept } rec .ok (BitVec.ofNat 32 (s.shadow.length - kept.length)))) ∧
    (1 < scope ∨ scope = 1 ∧ (last < first ∨ 0xFFFFFF < last) →
      exec (.purgeShadow rec) s = .next (answered s rec .invalidField 0))

/-- R153: SET_ATTENTION is refused with INVALID_FIELD, detail 0, exactly where its line, mode or route is out of range or the
pair is LEVEL with EVENT, and is otherwise accepted, acting as it is taken. R154: it then gives the line its mode and route and
clears its count and flag. A line not routed to WAIT fails its waiters in order of arrival, one at an asserted LEVEL releases
them, and on any other they stay; the number that left is reported. -/
def Obligations.SetAttentionActs : Prop :=
  ∀ (s : State) (rec : Record32), Taken s rec .setAttention →
    let good := AdminRecord.param rec 4 1 ≤ 7 ∧ AdminRecord.param rec 5 1 ≤ 2 ∧ AdminRecord.param rec 6 1 ≤ 1 ∧
      ¬ (AdminRecord.param rec 5 1 = 2 ∧ AdminRecord.param rec 6 1 = 0)
    (¬ good → exec (.setAttention rec) s = .next (answered s rec .invalidField 0)) ∧
    (good → ∃ t d, exec (.setAttention rec) s = .next (settle (adminAnswer t (AdminRecord.id rec) .ok d))) ∧
    ∀ (n : LineId) (m : AttnMode) (r : AttnRoute), AdminRecord.param rec 4 1 = n.val →
      attnModeOf (AdminRecord.param rec 5 1) = some m → attnRouteOf (AdminRecord.param rec 6 1) = some r →
      ¬ (m = .level ∧ r = .event) →
      let l := { s.line n with mode := m, route := r, count := 0, saturated := false }
      let left := (s.line n).waiters.map fun w => w.chan
      (m = .edge ∧ r = .wait ∨ m = .level ∧ l.level = false →
        exec (.setAttention rec) s = .next (settle (answered (s.setLine n l) rec .ok 0))) ∧
      (m = .off ∨ r = .event → exec (.setAttention rec) s = .next (settle (adminAnswer
        (left.foldl (fun t c => endScript t c .attnNotRouted (ordinalOf t c) 0)
          ((headPast s).setLine n { l with waiters := [] })) (AdminRecord.id rec) .ok (BitVec.ofNat 32 left.length)))) ∧
      (m = .level ∧ l.level = true → exec (.setAttention rec) s = .next (settle (adminAnswer
        (left.foldl (fun t c => t.setProgress c (.released false))
          ((headPast s).setLine n { l with waiters := [] })) (AdminRecord.id rec) .ok (BitVec.ofNat 32 left.length))))

/-- R162: SET_SYNC gives a counter its value, has its waiters examined, and reports the old value; an index above 7 or a value
above 65535 is refused. -/
def Obligations.SetSyncActs : Prop :=
  ∀ (s : State) (rec : Record32), Taken s rec .setSync →
    (7 < AdminRecord.param rec 4 1 ∨ 65535 < AdminRecord.param rec 8 4 →
      exec (.setSync rec) s = .next (answered s rec .invalidField 0)) ∧
    ∀ k : CounterId, AdminRecord.param rec 4 1 = k.val → AdminRecord.param rec 8 4 ≤ 65535 →
      exec (.setSync rec) s = .next (settle (answered
        (examine (s.setCounter k { s.counter k with value := AdminRecord.param rec 8 4 }) k) rec .ok
        (BitVec.ofNat 32 (s.counter k).value)))

/-- R158: the examination of a waiter list takes the entries in order, at the value the entries ahead have left. A watcher is
released exactly when the value meets its threshold; a consumer exactly when no consumer ahead of it stays and the value meets
its threshold, which is then subtracted; an entry not released stays in its place. So the value is lowered by exactly the
thresholds of the consumers released, and the first consumer that stays is unsatisfied. The counter takes the value and the
entries left, the steps of the channels released are released, and nothing else changes. -/
def Obligations.ExaminationLaw : Prop :=
  (∀ v : Nat, syncWalk v false [] = (v, [], [])) ∧
  (∀ (v : Nat) (ahead : List SyncWaiter) (w : SyncWaiter),
    let a := syncWalk v false ahead
    let released := w.threshold ≤ a.1 ∧ (w.consume = true → ∀ x ∈ a.2.1, x.consume = false)
    (released → syncWalk v false (ahead ++ [w]) =
      (a.1 - (if w.consume then w.threshold else 0), a.2.1, a.2.2 ++ [w.chan])) ∧
    (¬ released → syncWalk v false (ahead ++ [w]) = (a.1, a.2.1 ++ [w], a.2.2))) ∧
  (∀ (s : State) (k : CounterId),
    let r := syncWalk (s.counter k).value false (s.counter k).waiters
    examine s k = { s with
      sync := s.sync.set k { value := r.1, waiters := r.2.1 },
      chans := Vector.ofFn fun c : ChanId => if c ∈ r.2.2 then
        { s.chan c with script := (s.chan c).script.map fun sc =>
          { sc with current := sc.current.map fun st => { st with progress := .released false } } }
        else s.chan c }) ∧
  ∀ (v : Nat) (ws : List SyncWaiter),
    let r := syncWalk v false ws
    r.2.1.Sublist ws ∧ r.2.1.length + r.2.2.length = ws.length ∧
    r.1 + (ws.map fun w => if w.consume then w.threshold else 0).sum =
      v + (r.2.1.map fun w => if w.consume then w.threshold else 0).sum ∧
    (∀ w, r.2.1.find? (fun w => w.consume) = some w → r.1 < w.threshold)

/-- R195, R196: CONFIGURE_EVENTS begins the event ring at slot 0 with phase 1, clears EVENT_FAULT, keeps the holding set and
reports its size; a write in flight belongs to the old ring. The model's choices: that the records are counted before the first
of them is written (log entry 24), and that the highest host address is 2^64 - 1 (log entry 7). -/
def Obligations.ConfigureEventsActs : Prop :=
  ∀ (s : State) (rec : Record32), Taken s rec .configureEvents →
    let size := AdminRecord.param rec 4 2
    let base := AdminRecord.host rec 24
    let good := (size = 0 ∧ base = 0) ∨
      ((∃ j, 3 ≤ j ∧ j ≤ 10 ∧ size = 2 ^ j) ∧ base.toNat % 64 = 0 ∧ base.toNat + 16 * size ≤ 2 ^ 64)
    (good → exec (.configureEvents rec) s = .next (startEventWrite (answered
      { s with events := { s.events with
        base := base, size := size, tail := 0, head := 0, unconsumed := 0, phase := true, fault := false,
        write := s.events.write.map fun w => { w with stale := true } } } rec .ok
      (BitVec.ofNat 32 s.events.holding.length)))) ∧
    (¬ good → exec (.configureEvents rec) s = .next (answered s rec .invalidField 0))

/-- R168, R178, R181, R182, R185, R206, R207: the read of a command starts, with a slot reserved, exactly when the queue is
enabled, free of fault, idle, holds a command and has a free slot. An admin completion is posted at the end of its write and
asks for vector 0. A failure of either transfer sets ADMIN_FAULT and gives the slot up. A snapshot's command completes with OK,
or with HOST_FAULT when the write failed. During a bridge reset the outcome of each of these is discarded and nothing else
happens; an admin completion whose write ends with ADMIN_FAULT set meanwhile is not posted. That a command is taken also where
ADMIN_FAULT was set during its read is the model's choice, log entry 32. -/
def Obligations.AdminTransfersAct : Prop :=
  (∀ s : State,
    exec .commandReadStart s = .next
      (if s.ready = true ∧ s.enable = true ∧ s.admin.fault = false ∧ s.admin.progress = .idle ∧
          s.admin.ring.sqHead ≠ s.admin.ring.sqTail ∧
          s.admin.ring.unconsumed + (if s.admin.reserved then 1 else 0) < s.admin.ring.cqSize then
        { s with admin := { s.admin with
          reserved := true, progress := .reading (hostAdd s.admin.ring.sqBase (32 * s.admin.ring.sqHead)) } }
      else s)) ∧
  (∀ (s : State) (a : HostAddr), s.admin.progress = .reading a → s.ready = true →
    exec .commandReadFault s = .next
      { s with admin := { s.admin with fault := true, reserved := false, progress := .idle } }) ∧
  (∀ (s : State) (w : HostWrite), s.admin.progress = .completing w → s.ready = true → s.admin.fault = false →
    let next := if s.admin.ring.cqTail + 1 < s.admin.ring.cqSize then s.admin.ring.cqTail + 1 else 0
    exec (.adminCompletionWriteEnd true) s = .next (askVector
      { s with admin := { s.admin with
        reserved := false, progress := .idle,
        ring := { s.admin.ring with
          cqTail := next, unconsumed := s.admin.ring.unconsumed + 1,
          phase := if next = 0 then !s.admin.ring.phase else s.admin.ring.phase } } } 0) ∧
    exec (.adminCompletionWriteEnd false) s = .next
      { s with admin := { s.admin with fault := true, reserved := false, progress := .idle } }) ∧
  (∀ (s : State) (ok : Bool),
    let done : State := { s with admin := { s.admin with progress := .idle } }
    (∀ a, s.admin.progress = .reading a → s.ready = false → exec .commandReadFault s = .next done ∧
      ∀ rec, exec (.unknownCommand rec) s = .next done ∧ ∀ k i, (k, i) ∈ adminCommands rec → exec i s = .next done) ∧
    (∀ id d w, s.admin.progress = .snapshot id d w → s.ready = false → exec (.snapshotWriteEnd ok) s = .next done) ∧
    ∀ w, s.admin.progress = .completing w → s.ready = false ∨ s.admin.fault = true →
      exec (.adminCompletionWriteEnd ok) s = .next done) ∧
  (∀ (s : State) (rec : Record32) (a : HostAddr), s.admin.progress = .reading a → s.ready = true → s.admin.fault = true →
    AdminRecord.commonOk rec .setSync = true → AdminRecord.param rec 4 1 ≤ 7 → AdminRecord.param rec 8 4 ≤ 65535 →
    ∃ t, exec (.setSync rec) s = .next (settle t) ∧ t.admin = { s.admin with
      progress := .idle, ring := { s.admin.ring with
        sqHead := if s.admin.ring.sqHead + 1 < s.admin.ring.sqSize then s.admin.ring.sqHead + 1 else 0 } }) ∧
  ∀ (s : State) (id : BitVec 16) (d : Detail) (w : HostWrite), s.admin.progress = .snapshot id d w → s.ready = true →
    exec (.snapshotWriteEnd true) s = .next (adminAnswer s id .ok d) ∧
    exec (.snapshotWriteEnd false) s = .next (adminAnswer s id .hostFault 0)

/-! ## The course of a script -/

/-- R7 to R9, R21, R25, R29, R40: a completed step leaves its own lock and counts as executed, and the channel goes on. A
RUNNING one starts its next step, from the window's oldest entry in the order of R7, and a fetch of as many records as the
window has free when its conditions hold. A PAUSING one is PAUSED and an ABORTING one ends its script once nothing of it is in
flight, each naming until then what is (R2); a STOPPED or FAULTED one is released then, where a command waits for it. That no
fetch starts while a CALL or END has started and is not yet carried out is the model's reading, log entry 2, and the order in
which several transfers in flight are named its choice, log entry 10. -/
def Obligations.NextStepStarts : Prop :=
  (∀ (s : State) (c : ChanId) (sc : Script), (s.chan c).st = .running → (s.chan c).script = some sc →
    sc.checked = true → sc.ending = none →
    let inc (n : Nat) : Nat := if n < 4294967295 then n + 1 else n
    let begun (rest : List Entry) : State :=
      s.setChan c { s.chan c with script := some { sc with ordinals := inc sc.ordinals, window := rest } }
    goOn s c = startFetch (startNext s c) c ∧
    (sc.current = none →
      (sc.window = [] → startNext s c = s.setWait c .fetch) ∧
      (sc.window ≠ [] → sc.budget ≠ 0 → sc.executed = sc.budget →
        startNext s c = endScript s c .stepBudget (sc.ordinals + 1) 0) ∧
      (sc.budget = 0 ∨ sc.executed ≠ sc.budget →
        (∀ rest, sc.window = .fetchFault :: rest →
          startNext s c = endScript (begun rest) c .hostFault (inc sc.ordinals) 0) ∧
        (∀ a bits rest, sc.window = .record a bits :: rest → StepRecord.kind bits = none →
          startNext s c = endScript (begun rest) c .badStep (inc sc.ordinals) 0) ∧
        (∀ a bits rest, sc.window = .record a bits :: rest → StepRecord.kind bits ≠ none →
          startNext s c = s.setChan c { s.chan c with
            wait := .none,
            script := some { sc with
              ordinals := inc sc.ordinals, window := rest,
              current := some { addr := a, bits := bits, progress := .fresh } } }))) ∧
    let may := sc.window.length < 4 ∧ (s.chan c).fetch = none ∧
      (∀ e ∈ sc.window, ∃ a bits, e = .record a bits ∧ StepRecord.kind bits ≠ some .call ∧
        StepRecord.kind bits ≠ some .endStep) ∧
      ∀ st, sc.current = some st → st.progress = .fresh →
        StepRecord.kind st.bits ≠ some .call ∧ StepRecord.kind st.bits ≠ some .endStep
    (may → startFetch s c = s.setChan c { s.chan c with
      fetch := some { addr := sc.listPos, count := 4 - sc.window.length, discard := false } }) ∧
    (¬ may → startFetch s c = s)) ∧
  (∀ (s : State) (c : ChanId) (sc : Script), (s.chan c).script = some sc →
    let inc (n : Nat) : Nat := if n < 4294967295 then n + 1 else n
    let closed (t : State) : State := t.setChan c { s.chan c with
      wait := .none, timer := none, script := some { sc with executed := inc sc.executed, current := none } }
    (s.arb.lock ≠ some (c, .step) → completeStep s c = goOn (closed s) c) ∧
    (s.arb.lock = some (c, .step) → completeStep s c = goOn (closed { s with
      arb := { s.arb with lock := none }, own := { s.own with lockTimer := none } }) c)) ∧
  ∀ (s : State) (c : ChanId),
    let names : Prop :=
      (s.accessOf c = true → goOn s c = s.setWait c .access) ∧
      (s.accessOf c = false →
        (∀ d, (s.chan c).data = some d → goOn s c = s.setWait c (match d with
          | .requestRead _ => .fetch
          | .flushRead _ => .fetch
          | .slotRead _ => .fetch
          | _ => .hostWrite)) ∧
        ((s.chan c).data = none →
          ((s.chan c).fetch ≠ none → (∀ sc, (s.chan c).script = some sc → sc.window = []) →
            goOn s c = s.setWait c .fetch) ∧
          ((s.chan c).fetch = none ∨ (∃ sc, (s.chan c).script = some sc ∧ sc.window ≠ []) →
            goOn s c = s.setWait c .none)))
    ((s.chan c).st = .pausing →
      (quiet s c = false → names) ∧
      (∀ id, quiet s c = true → s.admin.progress = .waiting id (.pause c) →
        goOn s c = adminAnswer (s.setChan c { s.chan c with st := .paused, wait := .none }) id .ok 0)) ∧
    ((s.chan c).st = .aborting →
      (Unended s c → quiet s c = true → goOn s c = endScript s c .aborted (ordinalNow s c) (unitsDone s c)) ∧
      (¬ Unended s c ∨ quiet s c = false → names)) ∧
    ((s.chan c).st = .stopped ∨ (s.chan c).st = .faulted →
      (∀ id, quiet s c = true → s.admin.progress = .waiting id (.release c) →
        goOn s c = adminAnswer (s.setChan c Channel.reset) id .ok 0) ∧
      (quiet s c = false ∨ adminWaitsOn s (.release c) = false → goOn s c = s)) ∧
    ((s.chan c).st = .disabled ∨ (s.chan c).st = .idle ∨ (s.chan c).st = .paused → goOn s c = s)

/-! ## The register window -/

/-- R65, R67, R104, R106, R199, R201 to R205, R215: the register window and the driven lines. Writes of CONTROL with RESET 0,
ADMIN_BASE and INTR: the base is taken, in whole or in one half, while ENABLE is 0, no command is in progress and ADMIN_FAULT
is clear, without its bits below 4096, and every admin index then starts again; each vector takes its mask, and one left
unmasked with its pending bit set sends its message; other writes have no effect. A read of 32 bits returns each register, 0
while READY is 0 but for STATUS; a narrower one the bytes of that; one that is not aligned or spans two registers 0. The access
signals are driven while an access is in flight, in two phases, and REQ, GNT and BRST by the mode and the ownership state;
reads and driven levels are functions of the state (log entry 26). That a read of 8 bytes at 0x10 returns 0 is the model's
choice, log entry 33. -/
def Obligations.RegisterWritesAct : Prop :=
  (∀ (s : State) (off size : Nat) (v : BitVec 64), exec (.noRegisterWrite off size v) s = .next s) ∧
  (∀ s : State, s.ready = true →
    (∀ b, exec (.enable b) s = .next { s with enable := b }) ∧
    (∀ word, exec (.intr word) s = .next { s with
      vectors := Vector.ofFn fun k : VectorId =>
        if word.getLsbD k.val then { s.vector k with masked := true }
        else if (s.vector k).waiting then
          { masked := false, waiting := false, messages := (s.vector k).messages + 1 }
        else { s.vector k with masked := false } }) ∧
    (s.enable = false → s.admin.progress = .idle → s.admin.fault = false →
      let rings (base : HostAddr) : State := { s with admin := { s.admin with
        ring := { sqBase := base, sqSize := 32, cqBase := hostAdd base 1024, cqSize := 32, sqHead := 0, sqTail := 0,
                  cqHead := 0, cqTail := 0, unconsumed := 0, phase := true } } }
      (∀ v : BitVec 64, exec (.adminBase (.full v)) s = .next (rings (v &&& ~~~0xFFF))) ∧
      (∀ v : BitVec 32, exec (.adminBase (.low v)) s =
        .next (rings ((s.admin.ring.sqBase.extractLsb' 32 32 ++ v) &&& ~~~0xFFF))) ∧
      (∀ v : BitVec 32, exec (.adminBase (.high v)) s =
        .next (rings ((v ++ s.admin.ring.sqBase.extractLsb' 0 32) &&& ~~~0xFFF)))) ∧
    (s.enable = true ∨ s.admin.progress ≠ .idle ∨ s.admin.fault = true → ∀ w, exec (.adminBase w) s = .next s)) ∧
  (∀ s : State,
    let shown (w : BitVec 32) : BitVec 64 := if s.ready then w.setWidth 64 else 0
    let indices (head tail : Nat) : BitVec 32 := BitVec.ofNat 16 tail ++ BitVec.ofNat 16 head
    readRegister s 0x00 4 = shown (if s.enable then 1 else 0) ∧
    readRegister s 0x04 4 = (if s.ready then 1 else 0) ||| (match s.cause with
        | .powerOn => 0
        | .hostRequest => 0x10
        | .linkReset => 0x20) ||| (if s.admin.fault then 0x100 else 0) ||| (if s.events.fault then 0x200 else 0) ∧
    readRegister s 0x08 4 = shown (s.admin.ring.sqBase.extractLsb' 0 32) ∧
    readRegister s 0x0C 4 = shown (s.admin.ring.sqBase.extractLsb' 32 32) ∧
    readRegister s 0x08 8 = (if s.ready then s.admin.ring.sqBase else 0) ∧
    (∀ i : Fin 64, (readRegister s 0x10 4).getLsbD i.val = (s.ready && (List.finRange 6).any fun v : VectorId =>
      i.val == v.val && (s.vector v).masked || i.val == 16 + v.val && (s.vector v).waiting)) ∧
    readRegister s 0x20 4 = shown (indices s.admin.ring.sqHead s.admin.ring.cqTail) ∧
    readRegister s 0x24 4 = shown (if s.events.size = 0 then 0 else indices 0 s.events.tail) ∧
    (∀ c : ChanId, readRegister s (0x28 + 4 * c.val) 4 = shown (match (s.chan c).rings with
      | some r => indices r.sqHead r.cqTail
      | none => 0)) ∧
    (∀ off, off ∉ [0x00, 0x04, 0x08, 0x0C, 0x10, 0x20, 0x24, 0x28, 0x2C, 0x30, 0x34] → readRegister s off 4 = 0) ∧
    (∀ off size, size = 1 ∨ size = 2 → off % size = 0 → readRegister s off size =
      ((readRegister s (off - off % 4) 4).extractLsb' (8 * (off % 4)) (8 * size)).setWidth 64) ∧
    (∀ off size, 0 < size → off % size ≠ 0 ∨ size = 8 ∧ off ≠ 0x08 → readRegister s off size = 0)) ∧
  ∀ s : State,
    let idle : AccessSignals :=
      { xa := none, ll := none, ul := none, wrt := none, astb := none, dstb := none, lel := none, leu := none }
    (s.arb.inflight = none → ∀ ph, accessSignals s ph = idle) ∧
    (∀ f, s.arb.inflight = some f →
      let write : Bool := f.purpose.isWrite
      accessSignals s .address = { idle with
        xa := some (f.addr.extractLsb' 16 8), ll := some (f.addr.extractLsb' 0 8), ul := some (f.addr.extractLsb' 8 8),
        wrt := some write, astb := some true, dstb := some false, lel := some false, leu := some false } ∧
      accessSignals s .data = {
        xa := some (f.addr.extractLsb' 16 8), wrt := some write, astb := some false, dstb := some true, lel := some true,
        leu := some (f.region.width == .w16), ll := f.value.map fun v => v.extractLsb' 0 8,
        ul := if f.region.width = .w16 then f.value.map fun v => v.extractLsb' 8 8 else none }) ∧
    reqDriven s = (if s.own.mode = .guest then
      some (decide (s.own.state = .holding ∨ s.own.state = .settling ∨ s.own.state = .requesting)) else none) ∧
    gntDriven s = (if s.own.mode = .master then some (decide (s.own.state = .granted)) else none) ∧
    brstDriven s = decide (s.own.state = .pulsing)

/-- R19, R25, R31, R32, R80, R169 to R173, R184, R192: a valid index write takes both values and frees the records consumed,
and an invalid one faults the channel, the admin rings or the event ring. An IDLE channel sets its wait reason anew and a flush
that waits for a slot goes on. A fault leaves the channel with no script and nothing reserved, its request withdrawn, its lock
released unless its access is in flight, and its wait cut off, and raises CHANNEL_FAULT; the admin command that waits on the
channel is answered. A channel already FAULTED or DISABLED is not changed. The model's choices: the answer OK to an
ABORT_CHANNEL that waits for a completion write whose own failure faults the channel (log entry 13), and BAD_STATE to a
START_CHANNEL that waits (log entry 17). -/
def Obligations.QueueIndexWritesAct : Prop :=
  (∀ (s : State) (c : ChanId) (word : BitVec 32), s.ready = true →
    let t := (word.extractLsb' 0 16).toNat
    let h := (word.extractLsb' 16 16).toNat
    ((s.chan c).rings = none → exec (.channelQueueIndexWrite c word) s = .next s) ∧
    ∀ r, (s.chan c).rings = some r →
      let tailOk := t < r.sqSize ∧ (r.sqTail + r.sqSize - r.sqHead) % r.sqSize ≤ (t + r.sqSize - r.sqHead) % r.sqSize
      let taken := (h + r.cqSize - r.cqHead) % r.cqSize
      let headOk := h < r.cqSize ∧ taken ≤ r.unconsumed
      let r' := { r with sqTail := t, cqHead := h, unconsumed := r.unconsumed - taken }
      let ch := { s.chan c with rings := some r' }
      let full := r'.cqSize ≤ r'.unconsumed + (if ch.reserved then 1 else 0)
      (tailOk → headOk →
        (ch.st = .idle → exec (.channelQueueIndexWrite c word) s = .next (s.setChan c { ch with
          wait := if r.sqHead ≠ t ∧ full then .completionSpace else .none })) ∧
        (ch.st ≠ .idle → ch.st ≠ .aborting ∨ ch.script ≠ none ∨ ch.data ≠ none →
          exec (.channelQueueIndexWrite c word) s = .next (s.setChan c ch)) ∧
        (∀ b n, ch.st = .aborting → ch.script = none → ch.data = none → ch.abort = some (.flush b n) → r.sqHead ≠ b →
          ¬ full → exec (.channelQueueIndexWrite c word) s = .next (s.setChan c { ch with
            reserved := true, wait := .fetch, data := some (.flushRead (hostAdd r.sqBase (32 * r.sqHead))) }))) ∧
      (¬ tailOk → exec (.channelQueueIndexWrite c word) s = .next (settle (channelFault s c .sqTailInvalid false))) ∧
      (tailOk → ¬ headOk →
        exec (.channelQueueIndexWrite c word) s = .next (settle (channelFault s c .cqHeadInvalid false)))) ∧
  (∀ (s : State) (c : ChanId) (k : ChanFault) (own : Bool),
    ((s.chan c).st = .faulted ∨ (s.chan c).st = .disabled → channelFault s c k own = s) ∧
    ((s.chan c).st ≠ .faulted → (s.chan c).st ≠ .disabled → ∀ t, CutOff (s.setPresented c none) c t →
      let free : State := if lockHeldBy s c ∧ s.accessOf c = false then
        { t with arb := { t.arb with lock := none }, own := { t.own with lockTimer := none } } else t
      let code : Detail := match k with
        | .sqTailInvalid => 1
        | .cqHeadInvalid => 2
        | .requestReadFault => 3
        | .completionWriteFault => 4
      let u := raiseEvent (free.setChan c { s.chan c with
        st := .faulted, wait := .none, reserved := false, script := none, timer := none, abort := none,
        fetch := (s.chan c).fetch.map fun f => { f with discard := true } }) .channelFault c.val code
      let answers (id : BitVec 16) (st : AdminStatus) (d : Detail) : Prop := channelFault s c k own = adminAnswer u id st d
      ((∀ id on, s.admin.progress = .waiting id on → on ≠ .start c ∧ on ≠ .pause c ∧ on ≠ .abort c ∧ on ≠ .flush c) →
        channelFault s c k own = u) ∧
      ∀ id,
        (s.admin.progress = .waiting id (.start c) ∨ s.admin.progress = .waiting id (.pause c) → answers id .badState 7) ∧
        (s.admin.progress = .waiting id (.abort c) →
          (own = true → (s.chan c).st ≠ .aborting → answers id .ok 0) ∧
          (own = false ∨ (s.chan c).st = .aborting → answers id .badState 7)) ∧
        (s.admin.progress = .waiting id (.flush c) →
          (own = true → answers id .hostFault (match (s.chan c).abort with
            | some (.flush _ n) => BitVec.ofNat 32 n
            | _ => 0)) ∧
          (own = false → answers id .badState 7)))) ∧
  (∀ (s : State) (word : BitVec 32), s.ready = true →
    let t := (word.extractLsb' 0 16).toNat
    let h := (word.extractLsb' 16 16).toNat
    let r := s.admin.ring
    let taken := (h + r.cqSize - r.cqHead) % r.cqSize
    let good := (t < r.sqSize ∧ (r.sqTail + r.sqSize - r.sqHead) % r.sqSize ≤ (t + r.sqSize - r.sqHead) % r.sqSize) ∧
      h < r.cqSize ∧ taken ≤ r.unconsumed
    (s.admin.fault = true → exec (.adminQueueIndexWrite word) s = .next s) ∧
    (s.admin.fault = false → good → exec (.adminQueueIndexWrite word) s = .next { s with admin := { s.admin with
      ring := { r with sqTail := t, cqHead := h, unconsumed := r.unconsumed - taken } } }) ∧
    (s.admin.fault = false → ¬ good → exec (.adminQueueIndexWrite word) s = .next { s with admin := { s.admin with
      fault := true, reserved := false } })) ∧
  ∀ (s : State) (word : BitVec 32), s.ready = true →
    let h := (word.extractLsb' 16 16).toNat
    let e := s.events
    let taken := (h + e.size - e.head) % e.size
    (e.size = 0 ∨ e.fault = true → exec (.eventQueueIndexWrite word) s = .next s) ∧
    (e.size ≠ 0 → e.fault = false → h < e.size ∧ taken ≤ e.unconsumed → exec (.eventQueueIndexWrite word) s =
      .next (startEventWrite { s with events := { e with head := h, unconsumed := e.unconsumed - taken } })) ∧
    (e.size ≠ 0 → e.fault = false → ¬ (h < e.size ∧ taken ≤ e.unconsumed) → exec (.eventQueueIndexWrite word) s =
      .next { s with events := { e with fault := true } })

/-! ## Resets -/

/-- R2, R131 to R133, R206 to R210: a bridge reset stops the channels, the requests, the waits and the waiting commands. With no
access in flight a region change that waited acts, and the lock and a GUEST's bus are released; with one, that follows its end.
A link reset ends every transfer with it, and joins a reset under way. The reset completes once nothing is in flight, and the
Region Table, the Shadow Store and the port keep their contents. Power-on gives every block its power-on value, READY follows
when the initialisation ends, and a BRST asserted until then is observed there. In a reset a channel's wait reason names what is
in flight for it until that ends, and is NONE for what the reset took away. The model's choices: that R2 goes on so for a channel
that has stopped, in the state it had (log entry 31), a waiting port command is abandoned also with an access in flight (log entry
22), power-on keeps the levels of the lines (log entry 5), and a hot reset during the initialisation starts a bridge reset and
observes a BRST that stands (log entry 21). -/
def Obligations.ResetsAct : Prop :=
  ∀ s : State,
    let waits (t : State) : State := { t with chans := Vector.ofFn fun c => { t.chan c with wait := resetWait t c } }
    let stopped (cause : ResetCause) : State := { waits { s with
      admin := { s.admin with progress := match s.admin.progress with
        | .waiting _ _ => .idle
        | p => p },
      chans := s.chans.map fun ch => { ch with timer := none },
      arb := { s.arb with presented := Vector.replicate 4 none },
      attn := s.attn.map fun l => { l with waiters := [] },
      sync := s.sync.map fun k => { k with waiters := [] },
      own := { s.own with cmd := none, changeTimer := none, answers := false } } with ready := false, cause := cause }
    let unlocked (t : State) : State := { t with
      arb := { t.arb with lock := none },
      own := if t.own.mode = .guest then
          { t.own with lockTimer := none, breakDue := false, preemptDue := false, state := .released, holdTimer := none,
                       turnTimer := none, holdPassed := false }
        else { t.own with lockTimer := none, breakDue := false, preemptDue := false } }
    let ended (t : State) : State := waits { t with
      admin := { t.admin with progress := match t.admin.progress with
        | .waiting id on => .waiting id on
        | _ => .idle },
      chans := t.chans.map fun ch => { ch with data := none, fetch := none },
      events := { t.events with write := none },
      vectors := t.vectors.map fun v => { v with messages := 0 } }
    let observed (t : State) : State := raiseEvent { t with
      shadow := [], attn := t.attn.map fun l => { l with count := 0, saturated := false } } .brstReset 1 0
    (∀ c, waitOver s c = s.setChan c { s.chan c with wait := resetWait s c } ∧
      let ch := s.chan c
      let goes := ch.st = .running ∨ ch.st = .pausing ∨ ch.st = .aborting
      let fetches := ch.fetch ≠ none ∧ (∀ sc, ch.script = some sc → sc.window = []) ∧
        (ch.st = .running → ∀ sc, ch.script = some sc → sc.current = none)
      (¬ goes → resetWait s c = ch.wait) ∧
      (goes → (∃ f, s.arb.inflight = some f ∧ f.chan = c) → resetWait s c = .access) ∧
      (goes → (∀ f, s.arb.inflight = some f → f.chan ≠ c) →
        (∀ d, ch.data = some d → resetWait s c = match d with
          | .requestRead _ => .fetch
          | .flushRead _ => .fetch
          | .slotRead _ => .fetch
          | .readWrite _ => .hostWrite
          | .slotWrite _ => .hostWrite
          | .completion _ => .hostWrite) ∧
        (ch.data = none → (fetches → resetWait s c = .fetch) ∧ (¬ fetches → resetWait s c = .none)))) ∧
    (s.regionWait = none → afterAccessInReset s = serve (unlocked s)) ∧
    (∀ i (new : Option Region), (∀ id, s.admin.progress ≠ .waiting id .region) →
      (s.regionWait = some (.clear i) ∧ new = none ∨ ∃ g, s.regionWait = some (.set i g) ∧ new = some g) →
      let table := s.regions.set i new
      let keep : ShadowEntry → Bool := fun e =>
        shadowedAt table e.addr &&
          !(e.index == i && (match s.region i, new with
            | some old, some g => old.width != g.width
            | _, _ => false))
      afterAccessInReset s =
        serve (unlocked { s with regions := table, shadow := s.shadow.filter keep, regionWait := none })) ∧
    (s.ready = true → s.arb.inflight.isSome = true →
      (∀ b, exec (.bridgeReset b) s = .next (stopped .hostRequest)) ∧
      exec .linkHotReset s = .next (ended (stopped .linkReset))) ∧
    (s.ready = true → s.arb.inflight = none →
      (∀ b, exec (.bridgeReset b) s = .next (afterAccessInReset (stopped .hostRequest))) ∧
      exec .linkHotReset s = .next (ended (afterAccessInReset (stopped .linkReset)))) ∧
    (s.ready = false → s.cause ≠ .powerOn →
      exec .linkHotReset s = .next (ended { s with cause := .linkReset }) ∧
      let still := s.arb.inflight = none ∧ (s.admin.progress = .idle ∨ ∃ id on, s.admin.progress = .waiting id on) ∧
        (∀ c, (s.chan c).data = none ∧ (s.chan c).fetch = none) ∧ s.events.write = none ∧ ∀ v, (s.vector v).messages = 0
      (still → exec .bridgeResetComplete s = .next { s with
        ready := true, enable := false, timebase := 0, admin := Admin.reset, chans := Vector.replicate 4 Channel.reset,
        arb := Arbiter.reset, attn := s.attn.map fun l => { l with waiters := [] },
        sync := Vector.replicate 8 { value := 0, waiters := [] }, events := EventUnit.reset,
        vectors := Vector.replicate 6 { masked := true, waiting := false, messages := 0 } }) ∧
      (¬ still → exec .bridgeResetComplete s = .next s)) ∧
    exec .powerOn s = .next { State.reset with
      pending := s.pending, own := { Ownership.reset with req := s.own.req, gnt := s.own.gnt, brst := s.own.brst },
      attn := Vector.ofFn fun n : LineId => { AttnLine.reset with level := (s.line n).level } } ∧
    (s.ready = false → s.cause = .powerOn → s.arb.inflight = none →
      let up : State := { s with ready := true, timebase := 0 }
      let reset : State := afterAccessInReset (stopped .linkReset)
      exec .powerOnInitialisationEnd s = .next (if s.own.brst then observed up else up) ∧
      exec .linkHotReset s = .next (ended (if s.own.brst then observed reset else reset)))

/-- R200: every vector is masked with its pending bit clear at power-on and when a bridge reset completes, an ask then sets the
pending bit and sends nothing, and a backplane reset does not change the Interrupt Unit. -/
def Obligations.VectorsAtResets : Prop :=
  (∀ v, (State.reset.vector v).masked = true ∧ (State.reset.vector v).waiting = false) ∧
  (∀ (s t : State), exec .powerOn s = .next t → ∀ v, (t.vector v).masked = true ∧ (t.vector v).waiting = false) ∧
  (∀ (s t : State), exec .bridgeResetComplete s = .next t → s.ready = false → t.ready = true →
    ∀ v, (t.vector v).masked = true ∧ (t.vector v).waiting = false) ∧
  (∀ (s : State) (v : VectorId), (s.vector v).masked = true →
    askVector s v = s.setVector v { s.vector v with waiting := true }) ∧
  ∀ s : State, ∃ t u, exec .pulseEnd s = .next t ∧ t.vectors = s.vectors ∧
    exec .observedReset s = .next u ∧ u.vectors = s.vectors

/-! ## Ends of host transfers -/

/-- R3 to R6, R21, R25, R27, R28, R31: an IDLE channel takes a request when one waits and a completion slot is free. The end of
its read advances the SQ head and checks it: the first fetch starts, or the script ends with BAD_STEP charged to ordinal 1
where the list address is no multiple of 16 or a reserved position is not 0. Under a flush the FLUSHED completion is written,
the request unchecked. A failed read faults the channel, the head staying. In PAUSING the request is checked and its script
started no further, in ABORTING it is copied alone, and a FAULTED channel discards it. -/
def Obligations.RequestsArrive : Prop :=
  ∀ (s : State) (c : ChanId) (r : RingPair), s.ready = true → (s.chan c).rings = some r →
    let free := r.unconsumed + (if (s.chan c).reserved then 1 else 0) < r.cqSize
    let head := if r.sqHead + 1 < r.sqSize then r.sqHead + 1 else 0
    let none3 : Warnings := { shadowFull := false, softTimeout := false, attnSaturated := false }
    ((s.chan c).st = .idle → r.sqHead ≠ r.sqTail → free → exec (.requestTake c) s = .next (s.setChan c { s.chan c with
      st := .running, wait := .fetch, reserved := true, data := some (.requestRead (hostAdd r.sqBase (32 * r.sqHead))),
      script := some {
        tagValid := false, tag := 0, notify := false, lockBus := false, haltOnError := false, shadowStrict := false,
        budget := 0, executed := 0, ordinals := 0, warnings := none3, current := none, checked := false, listPos := 0,
        window := [], links := [], ending := none } })) ∧
    ((s.chan c).st ≠ .idle ∨ r.sqHead = r.sqTail ∨ ¬ free → exec (.requestTake c) s = .next s) ∧
    (∀ a sc, (s.chan c).data = some (.requestRead a) → (s.chan c).script = some sc →
      exec (.requestReadEnd c none) s = .next (settle (channelFault (dataOver s c) c .requestReadFault true)) ∧
      ∀ q : Record32,
        let copied : Script := { sc with
          tagValid := true, tag := q.extractLsb' 0 16, notify := q.getLsbD 16, lockBus := q.getLsbD 17,
          haltOnError := q.getLsbD 18, shadowStrict := q.getLsbD 19, budget := (q.extractLsb' 32 16).toNat }
        let ch : Channel := { s.chan c with data := none, rings := some { r with sqHead := head } }
        let list := q.extractLsb' 64 64
        let good := list.toNat % 16 = 0 ∧ q.extractLsb' 20 12 = 0 ∧ q.extractLsb' 48 16 = 0 ∧ q.extractLsb' 128 128 = 0
        ((s.chan c).st = .running → (s.chan c).fetch = none → sc.current = none → sc.window = [] → sc.ending = none → good →
          exec (.requestReadEnd c (some q)) s = .next (settle (s.setChan c { ch with
            wait := .fetch, fetch := some { addr := list, count := 4, discard := false },
            script := some { copied with checked := true, listPos := list } }))) ∧
        ((s.chan c).st = .pausing → good → exec (.requestReadEnd c (some q)) s = .next (settle (goOn
          (s.setChan c { ch with script := some { copied with checked := true, listPos := list } }) c))) ∧
        ((s.chan c).st ≠ .aborting → ¬ good → exec (.requestReadEnd c (some q)) s = .next (settle (endScript
          (s.setChan c { ch with script := some copied }) c .badStep 1 0))) ∧
        ((s.chan c).st = .aborting → exec (.requestReadEnd c (some q)) s = .next (settle (goOn
          (s.setChan c { ch with script := some copied }) c)))) ∧
    (∀ a q, (s.chan c).data = some (.requestRead a) → (s.chan c).script = none →
      exec (.requestReadEnd c q) s = .next (settle (goOn (dataOver s c) c))) ∧
    (∀ a q, (s.chan c).data = some (.flushRead a) → (s.chan c).st ≠ .aborting →
      exec (.flushRequestReadEnd c q) s = .next (settle (goOn (dataOver s c) c))) ∧
    ∀ a, (s.chan c).data = some (.flushRead a) → (s.chan c).st = .aborting →
      exec (.flushRequestReadEnd c none) s = .next (settle (channelFault (dataOver s c) c .requestReadFault true)) ∧
      ∀ q : Record32, exec (.flushRequestReadEnd c (some q)) s = .next (s.setChan c { s.chan c with
        rings := some { r with sqHead := head }, wait := .hostWrite,
        data := some (.completion {
          addr := hostAdd r.cqBase (16 * r.cqTail),
          bytes := completionBytes (q.extractLsb' 0 16) .flushed none3 r.phase head 0 0 0 }) })

/-- R2, R10, R13, R21, R25, R31, R41, R43, R53, R54, R64, R207: the records of a fetch join the window behind the others, a fault
as one mark, and a discarded fetch, or one that ends outside RUNNING and PAUSING, joins nothing. The end of a READ's write
completes the step; that of a BLOCK_IN slot completes it after the last unit and otherwise presents the next; that of a
BLOCK_OUT slot presents the unit. A host fault fails the step with the units done. In PAUSING the step stops before its next
access. Where the script's end is fixed the completion write starts, in ABORTING and FAULTED the outcome is discarded, and in a
bridge reset the transfer is over, with the wait for it (ResetsAct), and nothing more. That a next address past 0xFFFFFF fails in RUNNING at the presentation of
its unit, and in PAUSING only stops the step, is the model's choice, log entry 15. -/
def Obligations.TransfersEnd : Prop :=
  (∀ (s : State) (c : ChanId) (f : Fetch) (sc : Script), s.ready = true → (s.chan c).fetch = some f →
    (s.chan c).script = some sc → (s.chan c).st = .running ∨ (s.chan c).st = .pausing →
    let joined (window : List Entry) (pos : HostAddr) : State := s.setChan c { s.chan c with
      fetch := none, script := some { sc with window := sc.window ++ window, listPos := pos } }
    (f.discard = false →
      (∀ bits : BitVec 512, exec (.stepFetchEnd c (some bits)) s = .next (settle (goOn (joined
        ((List.range f.count).map fun i => .record (hostAdd f.addr (16 * i)) (bits.extractLsb' (128 * i) 128))
        (hostAdd f.addr (16 * f.count))) c))) ∧
      exec (.stepFetchEnd c none) s = .next (settle (goOn (joined [.fetchFault] sc.listPos) c)))) ∧
  (∀ (s : State) (c : ChanId) (f : Fetch), (s.chan c).fetch = some f →
    let ended : State := s.setChan c { s.chan c with fetch := none }
    (s.ready = true → f.discard = true ∨ (s.chan c).st ≠ .running ∧ (s.chan c).st ≠ .pausing →
      ∀ r, exec (.stepFetchEnd c r) s = .next (settle (goOn ended c))) ∧
    (s.ready = false → ∀ r, exec (.stepFetchEnd c r) s = .next (waitOver ended c))) ∧
  (∀ (s : State) (c : ChanId) (d : Data) (i : Instr), (s.chan c).data = some d →
    (∃ w ok, d = .readWrite w ∧ i = .readHostWriteEnd c ok) ∨ (∃ w ok, d = .slotWrite w ∧ i = .blockInSlotWriteEnd c ok) ∨
      (∃ a v, d = .slotRead a ∧ i = .blockOutSlotReadEnd c v) →
    (s.ready = true →
      (∀ sc e r, (s.chan c).script = some sc → sc.ending = some e → (s.chan c).rings = some r →
        exec i s = .next (settle (s.setChan c { s.chan c with
          wait := if (s.chan c).st = .running ∨ (s.chan c).st = .pausing ∨ (s.chan c).st = .aborting then .hostWrite
            else (s.chan c).wait,
          data := some (.completion {
            addr := hostAdd r.cqBase (16 * r.cqTail),
            bytes := completionBytes sc.tag e.status sc.warnings r.phase r.sqHead sc.executed e.ordinal e.detail }) }))) ∧
      ((s.chan c).script = none ∨ Unended s c ∧ (s.chan c).st ≠ .running ∧ (s.chan c).st ≠ .pausing →
        exec i s = .next (settle (goOn (dataOver s c) c)))) ∧
    (s.ready = false → exec i s = .next (waitOver (dataOver s c) c))) ∧
  (∀ (s : State) (c : ChanId), s.ready = false →
    (∀ a q, (s.chan c).data = some (.requestRead a) →
      exec (.requestReadEnd c q) s = .next (waitOver (dataOver s c) c)) ∧
    (∀ a q, (s.chan c).data = some (.flushRead a) →
      exec (.flushRequestReadEnd c q) s = .next (waitOver (dataOver s c) c)) ∧
    ∀ w ok, (s.chan c).data = some (.completion w) →
      exec (.completionWriteEnd c ok) s = .next (waitOver (dataOver s c) c)) ∧
  ∀ (s : State) (c : ChanId) (sc : Script) (st : Step), s.ready = true → InStep s c sc st →
    (s.chan c).st = .running ∨ (s.chan c).st = .pausing →
    let goes (t : State) (p : Progress) (a : Nat) (v : Option Value) (d : Nat) : State :=
      if (s.chan c).st = .pausing then goOn t c
      else if 0xFFFFFF < a then endScript t c .regionMiss sc.ordinals (BitVec.ofNat 32 d)
      else if s.own.mode = .isolated then endScript t c .portIsolated sc.ordinals (BitVec.ofNat 32 d)
      else joinSet t c (request s c { st with progress := p } (if v.isSome then .blockOut else .blockIn) (BitVec.ofNat 24 a) v)
    (∀ w, (s.chan c).data = some (.readWrite w) →
      exec (.readHostWriteEnd c true) s = .next (settle (completeStep (dataOver s c) c)) ∧
      exec (.readHostWriteEnd c false) s = .next (settle (endScript (dataOver s c) c .hostFault sc.ordinals 0))) ∧
    (∀ w d next v, (s.chan c).data = some (.slotWrite w) → st.progress = .blockIn d next v →
      exec (.blockInSlotWriteEnd c false) s =
        .next (settle (endScript (dataOver s c) c .hostFault sc.ordinals (BitVec.ofNat 32 d))) ∧
      let moved := (dataOver s c).setProgress c (.blockIn (d + 1) next none)
      (d + 1 = StepRecord.count st.bits → exec (.blockInSlotWriteEnd c true) s = .next (settle (completeStep moved c))) ∧
      (d + 1 ≠ StepRecord.count st.bits → exec (.blockInSlotWriteEnd c true) s =
        .next (settle (goes moved (.blockIn (d + 1) next none) next none (d + 1))))) ∧
    ∀ a d next v, (s.chan c).data = some (.slotRead a) → st.progress = .blockOut d next v → next ≤ 0xFFFFFF →
      exec (.blockOutSlotReadEnd c none) s =
        .next (settle (endScript (dataOver s c) c .hostFault sc.ordinals (BitVec.ofNat 32 d))) ∧
      ∀ x, exec (.blockOutSlotReadEnd c (some x)) s = .next (settle (goes
        ((dataOver s c).setProgress c (.blockOut d next (some x))) (.blockOut d next (some x)) next (some x) d))

/-- R15, R16, R21, R25, R27, R31, R168: a posted completion moves the ring on, releases the reservation and asks for the
channel's vector by R15; the channel then takes the state of R16, and a command that waited for it completes: a pause once
nothing of the channel is in flight, a flush at its boundary, reading the next request before it. A failed write faults the
channel, and in FAULTED the write has no effect on the ring. That a pause completes only once nothing of the channel is in
flight, a discarded fetch included, is the model's choice, log entry 18. The record's bytes are those ScriptEnds spells. -/
def Obligations.CompletionPosted : Prop :=
  ∀ (s : State) (c : ChanId) (w : HostWrite) (r : RingPair), s.ready = true → (s.chan c).data = some (.completion w) →
    (s.chan c).rings = some r →
    let tail := if r.cqTail + 1 < r.cqSize then r.cqTail + 1 else 0
    let r' := { r with
      cqTail := tail, unconsumed := r.unconsumed + 1, phase := if tail = 0 then !r.phase else r.phase }
    let ch : Channel := { s.chan c with data := none, script := none, reserved := false, rings := some r' }
    let idle : Channel := { ch with
      st := .idle, wait := if r.sqHead ≠ r.sqTail ∧ r.cqSize ≤ r.unconsumed + 1 then .completionSpace else .none }
    let paused : Channel := { ch with st := .paused, wait := .none }
    let vector : VectorId := ⟨c.val + 2, by omega⟩
    ((s.chan c).st ≠ .faulted → exec (.completionWriteEnd c false) s =
      .next (settle (channelFault (dataOver s c) c .completionWriteFault true))) ∧
    ((s.chan c).st = .faulted → ∀ ok, exec (.completionWriteEnd c ok) s = .next (goOn (dataOver s c) c)) ∧
    let flushed (t : State) (b n : Nat) (u : State) : Prop :=
      (∀ id, r.sqHead = b → s.admin.progress = .waiting id (.flush c) →
        u = adminAnswer (t.setChan c { ch with st := .stopped, wait := .none, abort := none }) id .ok (BitVec.ofNat 32 n)) ∧
      (r.sqHead ≠ b →
        (r.unconsumed + 1 < r.cqSize → u = t.setChan c { ch with
          st := .aborting, wait := .fetch, reserved := true, abort := some (.flush b n),
          data := some (.flushRead (hostAdd r.sqBase (32 * r.sqHead))) }) ∧
        (r.cqSize ≤ r.unconsumed + 1 → s.accessOf c = false → u = t.setChan c { ch with
          st := .aborting, wait := if ch.fetch.isSome then .fetch else .none, abort := some (.flush b n) }))
    (∀ sc e, (s.chan c).script = some sc → sc.ending = some e →
      let asked (t : State) : State :=
        if sc.notify = true ∨ (s.chan c).notifyAll = true ∨ (e.status ≠ .ok ∧ e.status ≠ .okWarn) then askVector t vector
        else t
      let after : Channel := if sc.haltOnError = true ∧ e.status ≠ .ok ∧ e.status ≠ .okWarn then paused else idle
      ((s.chan c).st = .running → (s.chan c).abort = none →
        (adminWaitsOn s (.abort c) = false →
          exec (.completionWriteEnd c true) s = .next (asked (s.setChan c after))) ∧
        ∀ id, s.admin.progress = .waiting id (.abort c) →
          exec (.completionWriteEnd c true) s = .next (adminAnswer (asked (s.setChan c after)) id .ok 0)) ∧
      ((s.chan c).st = .pausing →
        exec (.completionWriteEnd c true) s = .next (goOn (asked (s.setChan c ch)) c)) ∧
      ((s.chan c).st = .paused → (s.chan c).abort = none →
        (∀ id, s.admin.progress = .waiting id (.start c) →
          exec (.completionWriteEnd c true) s = .next (adminAnswer (asked (s.setChan c idle)) id .ok 0)) ∧
        (∀ id, s.admin.progress = .waiting id (.abort c) →
          exec (.completionWriteEnd c true) s = .next (adminAnswer (asked (s.setChan c paused)) id .ok 0)) ∧
        (adminWaitsOn s (.start c) = false → adminWaitsOn s (.abort c) = false →
          exec (.completionWriteEnd c true) s = .next (asked (s.setChan c paused)))) ∧
      (∀ id p, (s.chan c).st = .aborting → (s.chan c).abort = some (.current p) →
        s.admin.progress = .waiting id (.abort c) → exec (.completionWriteEnd c true) s = .next (adminAnswer
          (asked (s.setChan c { (if p then paused else idle) with abort := none })) id .ok 0)) ∧
      (∀ b n, (s.chan c).st = .running ∨ (s.chan c).st = .paused ∨ (s.chan c).st = .aborting →
        (s.chan c).abort = some (.flush b n) →
        ∃ u, exec (.completionWriteEnd c true) s = .next u ∧ flushed (asked s) b n u)) ∧
    ∀ b n, (s.chan c).st = .aborting → (s.chan c).script = none → (s.chan c).abort = some (.flush b n) →
      ∃ u, exec (.completionWriteEnd c true) s = .next u ∧ flushed (askVector s vector) b (n + 1) u

/-- R188 to R191, R196 to R198, R207, R213: a raise merges into the held record of its pair, or makes a record behind the
others. An event write starts for the oldest held record; at its end the record is posted and vector 1 asked for, or it returns
to the front of the holding set, merging with a held record of its pair, and EVENT_FAULT is set. A write of an abandoned ring
moves no index and sets no fault. A failed message sets its vector's pending bit. During a bridge reset the ends of both are
discarded. The bytes of the event record stand at their offsets. -/
def Obligations.EventWriteAndMessageEnd : Prop :=
  (∀ (r : EventRecord) (phase : Bool), eventBytes r phase =
    [match r.kind with
      | .attention => 1
      | .leaseOverrun => 2
      | .channelFault => 3
      | .brstReset => 4
      | .preempted => 5,
     BitVec.ofNat 8 r.source, BitVec.ofNat 8 r.occurrences, BitVec.ofNat 8 (r.occurrences / 256), if phase then 1 else 0, 0, 0,
     0, r.stamp.extractLsb' 0 8, r.stamp.extractLsb' 8 8, r.stamp.extractLsb' 16 8, r.stamp.extractLsb' 24 8,
     r.detail.extractLsb' 0 8, r.detail.extractLsb' 8 8, r.detail.extractLsb' 16 8, r.detail.extractLsb' 24 8]) ∧
  (∀ (s : State) (ok : Bool), s.ready = false →
    (s.events.write ≠ none → exec (.eventWriteEnd ok) s = .next { s with events := { s.events with write := none } }) ∧
    ∀ v, (s.vector v).messages ≠ 0 → exec (.messageEnd v ok) s =
      .next (s.setVector v { s.vector v with messages := (s.vector v).messages - 1 })) ∧
  (∀ (s : State) (k : EventKind) (src : Nat) (d : Detail),
    let held : State := { s with events := { s.events with
      holding := if ∃ r ∈ s.events.holding, r.kind = k ∧ r.source = src then
        s.events.holding.map fun r =>
          if r.kind = k ∧ r.source = src then { r with occurrences := min (r.occurrences + 1) 65535, detail := d } else r
      else s.events.holding ++ [{ kind := k, source := src, occurrences := 1, stamp := s.timebase, detail := d }] } }
    raiseEvent s k src d = startEventWrite held ∧
    (s.ready = false ∨ s.events.size = 0 ∨ s.events.fault = true ∨ s.events.write.isSome = true ∨
      s.events.size ≤ s.events.unconsumed → raiseEvent s k src d = held)) ∧
  (∀ (s : State) (x : EventRecord) (rest : List EventRecord), s.ready = true → s.events.size ≠ 0 →
    s.events.fault = false → s.events.write = none → s.events.unconsumed < s.events.size → s.events.holding = x :: rest →
    startEventWrite s = { s with events := { s.events with
      holding := rest,
      write := some { record := x, stale := false, write :=
        { addr := hostAdd s.events.base (16 * s.events.tail), bytes := eventBytes x s.events.phase } } } }) ∧
  (∀ (s : State) (w : EventWrite), s.ready = true → s.events.write = some w →
    let e := s.events
    let tail := if e.tail + 1 < e.size then e.tail + 1 else 0
    let returned : List EventRecord → Prop := fun held =>
      ((∀ x ∈ e.holding, ¬ (x.kind = w.record.kind ∧ x.source = w.record.source)) → held = w.record :: e.holding) ∧
      ∀ x front back, e.holding = front ++ x :: back → x.kind = w.record.kind → x.source = w.record.source →
        (∀ y ∈ front ++ back, ¬ (y.kind = w.record.kind ∧ y.source = w.record.source)) →
        held = { w.record with
          occurrences := min (w.record.occurrences + x.occurrences) 65535, detail := x.detail } :: (front ++ back)
    (w.stale = false → exec (.eventWriteEnd true) s = .next (startEventWrite (askVector { s with events := { e with
      write := none, tail := tail, unconsumed := e.unconsumed + 1, phase := if tail = 0 then !e.phase else e.phase } } 1))) ∧
    (w.stale = false → ∃ held, returned held ∧ exec (.eventWriteEnd false) s =
      .next { s with events := { e with write := none, holding := held, fault := true } }) ∧
    (w.stale = true → exec (.eventWriteEnd true) s = .next (startEventWrite { s with events := { e with write := none } })) ∧
    (w.stale = true → ∃ held, returned held ∧ exec (.eventWriteEnd false) s =
      .next (startEventWrite { s with events := { e with write := none, holding := held } }))) ∧
  ∀ (s : State) (v : VectorId) (ok : Bool), s.ready = true → (s.vector v).messages ≠ 0 →
    exec (.messageEnd v ok) s = .next (s.setVector v { s.vector v with
      messages := (s.vector v).messages - 1, waiting := (s.vector v).waiting || !ok })

/-! ## Steps -/

/-- R34 to R38, R42 to R54, R79, R85, R116, R212: an access step, its check passed, presents its first request, or is served
from the Shadow Store where its read is diverted; BLOCK_OUT first reads its first slot. In ISOLATED mode a request fails at
once. Every kind that fails its check fails with BAD_STEP; the check is spelled for each kind: the flags and positions its row
leaves unused are 0, and its fields are in their ranges. A request that joins the set stands there with the wait reason BUS,
and a GUEST's RELEASED port with GNT low asks for the bus. Its mark is none for the lock holder, SCRIPT under LOCK_BUS, and
STEP on the first access of a LOCKED step. What a step does is the same in its own command and within a delivery (takeStep).
The action an access step takes is the one it takes when it resumes (StartChannelResumes). That the highest host address is
2^64 - 1 is the model's choice, log entry 7. -/
def Obligations.AccessStepsPresent : Prop :=
  (∀ (bits : StepBits) (k : StepKind),
    let zero (off size : Nat) : Prop := bits.extractLsb' (8 * off) (8 * size) = 0
    let flags (defined : BitVec 8) : Prop := bits.extractLsb' 8 8 &&& ~~~defined = 0
    let addr := (bits.extractLsb' 16 24).toNat
    let count := (bits.extractLsb' 48 16).toNat
    let host := (bits.extractLsb' 64 64).toNat
    let block : Prop := flags 3 ∧ zero 5 1 ∧ 1 ≤ count ∧ count ≤ 4096 ∧ host + 2 * count ≤ 2 ^ 64 ∧
      (bits.getLsbD 9 = true ∨ addr + count - 1 ≤ 0xFFFFFF)
    StepRecord.ok bits k = true ↔ match k with
      | .write => flags 0 ∧ zero 5 3 ∧ zero 10 6
      | .read => flags 0 ∧ zero 5 3 ∧ host + 2 ≤ 2 ^ 64
      | .modify => flags 1 ∧ zero 5 3 ∧ zero 12 4
      | .poll => flags 8 ∧ zero 5 3 ∧ bits.extractLsb' 112 16 ≠ 0 ∧
          bits.extractLsb' 80 16 &&& ~~~(bits.extractLsb' 64 16) = 0
      | .blockIn => block
      | .blockOut => block
      | .call => flags 0 ∧ zero 2 6 ∧ host % 16 = 0 ∧ host + 16 ≤ 2 ^ 64
      | .endStep => flags 0 ∧ zero 2 14
      | .delay => flags 0 ∧ zero 2 4 ∧ zero 8 8 ∧ count ≠ 0
      | .signal => flags 0 ∧ zero 5 1 ∧ zero 8 8 ∧ addr ≤ 7 ∧ count ≠ 0
      | .await => flags 12 ∧ zero 5 1 ∧ zero 12 4 ∧ addr ≤ 7
      | .attend => flags 8 ∧ zero 5 3 ∧ zero 12 4 ∧ addr ≤ 7) ∧
  (∀ (s : State) (c : ChanId) (r : Request), joinSet s c r = { s with
    chans := s.chans.set c { s.chan c with wait := .bus },
    arb := { s.arb with presented := s.arb.presented.set c (some r) },
    own := { s.own with state :=
      if s.own.mode = .guest ∧ s.own.state = .released ∧ s.own.gnt = false then .requesting else s.own.state } }) ∧
  (∀ (s : State) (c : ChanId) (sc : Script) (st : Step) (p : Purpose) (a : BusAddr) (v : Option Value),
    (s.chan c).script = some sc →
    let marked (m : Option LockKind) : Prop := request s c st p a v =
      { addr := a, purpose := p, value := v, mark := m, attempt := 1, presentedAt := s.timebase }
    let first : Prop := st.progress = .modRead ∨ (∃ b, st.progress = .modWrite none b) ∨
      (∃ n x, st.progress = .blockIn 0 n x) ∨ ∃ n x, st.progress = .blockOut 0 n x
    (∀ k, s.arb.lock = some (c, k) → marked none) ∧
    ((∀ k, s.arb.lock ≠ some (c, k)) →
      (sc.lockBus = true → marked (some .script)) ∧
      (sc.lockBus = false → st.bits.getLsbD 8 = true → first → marked (some .step)) ∧
      (sc.lockBus = false → st.bits.getLsbD 8 = false ∨ ¬ first → marked none))) ∧
  (∀ (s : State) (c : ChanId) (st : Step) (k : StepKind) (i : Instr),
    let does (i : Instr) (t : State) : Prop := takeStep s c = t ∧ exec i s = .next (settle t)
    (k, i) ∈ [(StepKind.write, Instr.write c), (.read, .read c), (.modify, .modify c), (.poll, .poll c),
      (.blockIn, .blockIn c), (.blockOut, .blockOut c), (.call, .call c), (.endStep, .endStep c), (.delay, .delay c),
      (.signal, .signal c), (.await, .await c), (.attend, .attend c)] →
    s.ready = true → (s.chan c).st = .running → s.step? c = some st → st.progress = .fresh →
    StepRecord.kind st.bits = some k →
    StepRecord.ok st.bits k = false → does i (endScript s c .badStep (ordinalOf s c) 0)) ∧
  (∀ (s : State) (c : ChanId) (st : Step) (k : StepKind) (i : Instr) (p : Progress),
    let does (i : Instr) (t : State) : Prop := takeStep s c = t ∧ exec i s = .next (settle t)
    (k, i, p) ∈ [(StepKind.write, Instr.write c, Progress.write), (.read, .read c, .read), (.modify, .modify c, .modRead),
      (.poll, .poll c, .poll (StepRecord.tries st.bits) 0),
      (.blockIn, .blockIn c, .blockIn 0 (StepRecord.addr st.bits).toNat none),
      (.blockOut, .blockOut c, .blockOut 0 (StepRecord.addr st.bits).toNat none)] →
    Ready s c k st → does i (act (s.setProgress c p) c)) ∧
  ∀ (s : State) (c : ChanId) (st : Step),
    let does (i : Instr) (t : State) : Prop := takeStep s c = t ∧ exec i s = .next (settle t)
    let a := StepRecord.addr st.bits
    let presents (p : Progress) (purpose : Purpose) (v : Option Value) : State := joinSet (s.setProgress c p) c
      (request s c { st with progress := p } purpose a v)
    let shadowed (i : RegionId) (g : Region) : Prop := lookup s.regions a = some (i, g) ∧ g.rights = .writeOnlyShadowed
    (s.own.mode ≠ .isolated →
      (Ready s c .write st →
        does (.write c) (presents .write .write (some (StepRecord.value st.bits)))) ∧
      (Ready s c .poll st →
        does (.poll c) (presents (.poll (StepRecord.tries st.bits) 0) .pollTry none)) ∧
      (Ready s c .blockIn st → does (.blockIn c) (presents (.blockIn 0 a.toNat none) .blockIn none)) ∧
      ((∀ i g, ¬ shadowed i g) →
        (Ready s c .read st → does (.read c) (presents .read .read none)) ∧
        (Ready s c .modify st → does (.modify c) (presents .modRead .modifyRead none))) ∧
      ∀ i g e, shadowed i g → (g.width = .w16 → a.toNat % 2 = 0) → s.shadow.find? (fun x => x.addr == a) = some e →
        Ready s c .modify st → does (.modify c) (presents (.modWrite none false) .modifyWrite none)) ∧
    (∀ i g, shadowed i g → (g.width = .w16 → a.toNat % 2 = 0) → Ready s c .read st →
      (∀ e, s.shadow.find? (fun x => x.addr == a) = some e →
        let v := if g.width = .w8 then e.value &&& 0xFF else e.value
        let t := s.setProgress c (.readValue v)
        does (.read c) (t.setChan c { t.chan c with
          wait := .hostWrite,
          data := some (.readWrite {
            addr := StepRecord.hostAddr st.bits, bytes := [v.extractLsb' 0 8, v.extractLsb' 8 8] }) })) ∧
      ((∀ x ∈ s.shadow, x.addr ≠ a) → does (.read c) (endScript (s.setProgress c .read) c .shadowMiss
        (ordinalOf s c) (a.setWidth 32)))) ∧
    (Ready s c .blockOut st →
      let t := s.setProgress c (.blockOut 0 a.toNat none)
      does (.blockOut c) (t.setChan c { t.chan c with
        wait := .fetch, data := some (.slotRead (StepRecord.hostAddr st.bits)) })) ∧
    (s.own.mode = .isolated → Ready s c .write st → does (.write c) (endScript
      (s.setProgress c .write) c .portIsolated (ordinalOf s c) (a.setWidth 32)))

/-- R8, R11, R12, R40, R56 to R58: CALL pushes the position behind it, clears the window and turns to the sub-list, and at
depth 6 fails with LINK_OVERFLOW. END at depth 0 counts as executed, gives up its own lock and ends the script with OK, or
OK_WARN with a warning held; above it it pops the position. DELAY waits its count in µs. Each does the same within a delivery
(takeStep). -/
def Obligations.TurnStepsAct : Prop :=
  ∀ (s : State) (c : ChanId) (sc : Script) (st : Step), InStep s c sc st →
    let does (i : Instr) (t : State) : Prop := takeStep s c = t ∧ exec i s = .next (settle t)
    let turned (links : List HostAddr) (pos : HostAddr) : State := s.setChan c { s.chan c with
      fetch := (s.chan c).fetch.map fun f => { f with discard := true },
      script := some { sc with window := [], links := links, listPos := pos } }
    (Ready s c .call st →
      (sc.links.length < 6 → does (.call c) (completeStep
        (turned (hostAdd st.addr 16 :: sc.links) (StepRecord.hostAddr st.bits)) c)) ∧
      (6 ≤ sc.links.length → does (.call c) (endScript s c .linkOverflow sc.ordinals 0))) ∧
    (Ready s c .endStep st →
      (∀ pos rest, sc.links = pos :: rest → does (.endStep c) (completeStep (turned rest pos) c)) ∧
      (sc.links = [] →
        let free : State := if s.arb.lock = some (c, .step) then
          { s with arb := { s.arb with lock := none }, own := { s.own with lockTimer := none } } else s
        let closed : State := free.setChan c { s.chan c with
          wait := .none, timer := none,
          script := some { sc with
            current := none, executed := if sc.executed < 4294967295 then sc.executed + 1 else sc.executed } }
        does (.endStep c) (endScript closed c
          (if sc.warnings.shadowFull = true ∨ sc.warnings.softTimeout = true ∨ sc.warnings.attnSaturated = true then .okWarn
           else .ok) 0 0))) ∧
    (Ready s c .delay st →
      let t := s.setProgress c .waiting
      does (.delay c) (t.setChan c { t.chan c with
        wait := .timer, timer := some (StepRecord.count st.bits) }))

/-- R59, R60, R62, R149, R157, R159: SIGNAL raises its counter and has its waiters examined, and a sum above 65535 fails with
the value unchanged. AWAIT is satisfied at once, taking its threshold under CONSUME, or joins the list's end. ATTEND consumes a
pending assertion, or completes at an asserted LEVEL, or joins the list's end, and fails on a line not routed to WAIT. Each
does the same within a delivery (takeStep). -/
def Obligations.SyncStepsAct : Prop :=
  ∀ (s : State) (c : ChanId) (st : Step),
    let does (i : Instr) (t : State) : Prop := takeStep s c = t ∧ exec i s = .next (settle t)
    let k := StepRecord.index st.bits
    let count := StepRecord.count st.bits
    let timeout : Option Time :=
      if StepRecord.timeout st.bits = 0 then none else some (s.timebase + StepRecord.timeout st.bits)
    let fails (e : Status) : State := endScript s c e (ordinalOf s c) 0
    let waits (t : State) (w : WaitReason) : State := (t.setProgress c .waiting).setWait c w
    (Ready s c .signal st →
      ((s.counter k).value + count ≤ 65535 → does (.signal c) (examine (completeStep
        (s.setCounter k { s.counter k with value := (s.counter k).value + count }) c) k)) ∧
      (65535 < (s.counter k).value + count → does (.signal c) (fails .syncOverflow))) ∧
    (Ready s c .await st →
      let consume := StepRecord.consume st.bits
      let met := count ≤ (s.counter k).value ∧
        (consume = true → ∀ w ∈ (s.counter k).waiters, w.consume = false)
      (met → consume = false → does (.await c) (completeStep s c)) ∧
      (met → consume = true → does (.await c) (completeStep
        (s.setCounter k { s.counter k with value := (s.counter k).value - count }) c)) ∧
      (¬ met → does (.await c) (waits (s.setCounter k { s.counter k with
        waiters := (s.counter k).waiters ++ [{ chan := c, threshold := count, consume := consume, timeout := timeout }] })
        .sync))) ∧
    (Ready s c .attend st →
      let l := s.line k
      let joins : State := waits (s.setLine k { l with waiters := l.waiters ++ [{ chan := c, timeout := timeout }] }) .attention
      (l.mode = .off ∨ l.route = .event → does (.attend c) (fails .attnNotRouted)) ∧
      (l.mode = .edge → l.route = .wait → l.count ≠ 0 →
        let t := s.setLine k { l with count := l.count - 1, saturated := false }
        does (.attend c) (completeStep (if l.saturated then t.warn c warnAttnSaturated else t) c)) ∧
      (l.mode = .edge → l.route = .wait → l.count = 0 → does (.attend c) joins) ∧
      (l.mode = .level → l.route = .wait → l.level = true → does (.attend c) (completeStep s c)) ∧
      (l.mode = .level → l.route = .wait → l.level = false → does (.attend c) joins))

/-! ## Ends of accesses -/

/-- R21, R25, R31, R69 to R73, R88, R207: RDY ends an attempt in SAMPLED mode and the strobe one in FIXED mode, BERR one in
either; a read returns the enabled lanes. The ready timeout of SAMPLED mode presents the request again, its value whole, while
the attempt number is at most the retries figure, and otherwise is the outcome. In PAUSING the step stops before that
presentation, in ABORTING and FAULTED the timeout is discarded, a FAULTED channel's lock being released, and in a bridge reset
the access is over, with the wait for it (ResetsAct). With none in flight, or in the other ready mode, nothing happens. The model's choices: the retry of a write
half formed from the Shadow Store carries the value formed (log entry 9); breaks and region changes that waited act at the end
of an attempt whose retry has joined the set, a break withdrawing that retry (log entry 23); and with none in flight an end has
no effect (log entry 1). -/
def Obligations.AttemptsEnd : Prop :=
  (∀ (s : State) (lanes : Value), s.arb.inflight = none →
    exec (.accessDone lanes) s = .next s ∧ exec (.strobeEnd lanes) s = .next s ∧ exec .targetError s = .next s ∧
    exec .readyTimeout s = .next s) ∧
  ∀ (s : State) (f : InFlight) (lanes : Value), s.arb.inflight = some f →
    let value : Value := if f.purpose.isWrite then 0 else if f.region.width = .w8 then lanes &&& 0xFF else lanes
    let c := f.chan
    exec .targetError s = .next (endAccess s f (.failed .targetError)) ∧
    (f.region.readyMode = .sampled →
      exec (.accessDone lanes) s = .next (endAccess s f (.done value)) ∧ exec (.strobeEnd lanes) s = .next s ∧
      (f.region.retries < f.attempt → exec .readyTimeout s = .next (endAccess s f (.failed .readyTimeout))) ∧
      (f.attempt ≤ f.region.retries → s.ready = true →
        ((s.chan c).st = .running → exec .readyTimeout s = .next (settle (joinSet (accessOver s) c
          { addr := f.addr, purpose := f.purpose, value := f.value, mark := f.mark, attempt := f.attempt + 1,
            presentedAt := s.timebase }))) ∧
        ((s.chan c).st = .pausing ∨ (s.chan c).st = .aborting →
          exec .readyTimeout s = .next (settle (goOn (accessOver s) c))) ∧
        ((s.chan c).st = .faulted → lockHeldBy s c = false →
          exec .readyTimeout s = .next (settle (goOn (accessOver s) c))) ∧
        ((s.chan c).st = .faulted → lockHeldBy s c = true → exec .readyTimeout s = .next (settle (goOn
          { accessOver s with
            arb := { (accessOver s).arb with lock := none }, own := { s.own with lockTimer := none } } c)))) ∧
      (f.attempt ≤ f.region.retries → s.ready = false →
        exec .readyTimeout s = .next (afterAccessInReset (waitOver (accessOver s) c)))) ∧
    (f.region.readyMode = .fixed →
      exec (.strobeEnd lanes) s = .next (endAccess s f (.done value)) ∧ exec (.accessDone lanes) s = .next s ∧
      exec .readyTimeout s = .next s)

/-- R21, R25, R31, R37, R39, R42 to R55, R67, R74, R136, R137, R207: the outcome of an access. A write that ended DONE in a
shadowed window is recorded with the unit the lanes carried, and FULL is a warning, or under SHADOW_STRICT a failure. A failed
access fails its step. A WRITE and the write half of a MODIFY complete; a READ starts its host write; a MODIFY presents its
write half; a POLL compares, and waits its interval or tries again; a block step goes on to its next unit. In PAUSING the step
stops before its next action. In ABORTING and FAULTED the outcome is discarded, a FAULTED channel's lock being released, and in
a bridge reset no outcome is delivered; what the write recorded stands. A step whose completion starts the next has that one
carried out too (HappeningEnds, log entry 2). That a next address past 0xFFFFFF fails here, before the next slot is read, is
the model's choice, log entry 15. -/
def Obligations.OutcomesTaken : Prop :=
  ∀ (s : State) (f : InFlight), s.arb.inflight = some f →
    let c := f.chan
    let gone := accessOver s
    let unit (v : Value) : Value := if f.region.width = .w8 then v &&& 0xFF else v
    let shadowed : Bool := f.purpose.isWrite && f.value.isSome && f.region.rights == .writeOnlyShadowed
    let held : Bool := s.shadow.any fun e => e.addr == f.addr
    let full : Bool := shadowed && !held && 64 ≤ s.shadow.length
    let recorded : State := match f.value with
      | some v =>
        if !shadowed || full then gone
        else if held then
          { gone with shadow := s.shadow.map fun e => if e.addr = f.addr then { e with value := unit v } else e }
        else { gone with shadow := s.shadow ++ [{ addr := f.addr, value := unit v, index := f.index }] }
      | none => gone
    let left (o : AccessOutcome) : State := match o with
      | .done _ => recorded
      | .failed _ => gone
    (s.ready = false → ∀ o, endAccess s f o = afterAccessInReset (waitOver (left o) c)) ∧
    (s.ready = true → ∀ o,
      ((s.chan c).st = .aborting → endAccess s f o = settle (goOn (left o) c)) ∧
      ((s.chan c).st = .faulted → lockHeldBy s c = false → endAccess s f o = settle (goOn (left o) c)) ∧
      ((s.chan c).st = .faulted → lockHeldBy s c = true → endAccess s f o = settle (goOn
        { left o with arb := { gone.arb with lock := none }, own := { s.own with lockTimer := none } } c))) ∧
    ∀ (sc : Script) (st : Step), s.ready = true → (s.chan c).st = .running ∨ (s.chan c).st = .pausing → InStep s c sc st →
    let a := (StepRecord.addr st.bits).setWidth 32
    let strict : Bool := full && sc.shadowStrict
    let warned (t : State) : State := if full then t.warn c warnShadowFull else t
    let goes (t : State) (d : Detail) (next : State) : State :=
      if (s.chan c).st = .pausing then goOn t c
      else if s.own.mode = .isolated then endScript t c .portIsolated sc.ordinals d else next
    let moves (t : State) (w : WaitReason) (d : Data) : State :=
      if (s.chan c).st = .pausing then goOn t c else t.setChan c { t.chan c with wait := w, data := some d }
    (∀ e, endAccess s f (.failed e) = settle (endScript gone c e sc.ordinals (match st.progress with
      | .blockIn d _ _ => BitVec.ofNat 32 d
      | .blockOut d _ _ => BitVec.ofNat 32 d
      | _ => a))) ∧
    (∀ x, st.progress = .write ∨ (∃ kept b, st.progress = .modWrite kept b) →
      (strict = true → endAccess s f (.done x) = settle (endScript recorded c .shadowFull sc.ordinals a)) ∧
      (strict = false → endAccess s f (.done x) = settle (carrySteps (completeStep (warned recorded) c) c))) ∧
    (f.purpose.isWrite = false →
      (∀ v, st.progress = .read →
        endAccess s f (.done v) = settle (moves (gone.setProgress c (.readValue v)) .hostWrite (.readWrite {
          addr := StepRecord.hostAddr st.bits, bytes := [v.extractLsb' 0 8, v.extractLsb' 8 8] }))) ∧
      (∀ v, st.progress = .modRead →
        let t := gone.setProgress c (.modWrite (some v) false)
        endAccess s f (.done v) = settle (goes t a (joinSet t c
          (request s c { st with progress := .modWrite (some v) false } .modifyWrite (StepRecord.addr st.bits)
            (some ((v &&& ~~~(StepRecord.clearMask st.bits)) ||| StepRecord.setMask st.bits)))))) ∧
      (∀ v tries last, st.progress = .poll tries last →
        let t := gone.setProgress c (.poll (tries - 1) v)
        let hit := v &&& StepRecord.mask st.bits = StepRecord.wanted st.bits
        (hit → endAccess s f (.done v) = settle (carrySteps (completeStep t c) c)) ∧
        (¬ hit → tries = 1 → StepRecord.soft st.bits = false →
          endAccess s f (.done v) = settle (endScript t c .pollTimeout sc.ordinals (v.setWidth 32))) ∧
        (¬ hit → tries = 1 → StepRecord.soft st.bits = true →
          endAccess s f (.done v) = settle (carrySteps (completeStep (t.warn c warnSoftTimeout) c) c)) ∧
        (¬ hit → 2 ≤ tries → StepRecord.interval st.bits = 0 → endAccess s f (.done v) = settle (goes t a (joinSet t c
          (request s c { st with progress := .poll (tries - 1) v } .pollTry (StepRecord.addr st.bits) none)))) ∧
        (¬ hit → 2 ≤ tries → StepRecord.interval st.bits ≠ 0 → endAccess s f (.done v) = settle (
          if (s.chan c).st = .pausing then goOn t c else t.setChan c
            { t.chan c with wait := .timer, timer := some (StepRecord.interval st.bits) }))) ∧
      (∀ v d n x, st.progress = .blockIn d n x →
        let next := if StepRecord.fixedAddr st.bits then f.addr.toNat else
          f.addr.toNat + (if f.region.width = .w8 then 1 else 2)
        endAccess s f (.done v) = settle (moves (gone.setProgress c (.blockIn d next (some v))) .hostWrite (.slotWrite {
          addr := hostAdd (StepRecord.hostAddr st.bits) (2 * d), bytes := [v.extractLsb' 0 8, v.extractLsb' 8 8] })))) ∧
    (∀ x d n v, st.progress = .blockOut d n v →
      let next := if StepRecord.fixedAddr st.bits then f.addr.toNat else
        f.addr.toNat + (if f.region.width = .w8 then 1 else 2)
      let t := recorded.setProgress c (.blockOut (d + 1) next none)
      (strict = true →
        endAccess s f (.done x) = settle (endScript t c .shadowFull sc.ordinals (BitVec.ofNat 32 (d + 1)))) ∧
      (strict = false →
        (d + 1 = StepRecord.count st.bits → endAccess s f (.done x) = settle (carrySteps (completeStep (warned t) c) c)) ∧
        (d + 1 ≠ StepRecord.count st.bits → next ≤ 0xFFFFFF ∨ (s.chan c).st = .pausing → endAccess s f (.done x) =
          settle (moves (warned t) .fetch (.slotRead (hostAdd (StepRecord.hostAddr st.bits) (2 * (d + 1)))))) ∧
        (d + 1 ≠ StepRecord.count st.bits → 0xFFFFFF < next → (s.chan c).st = .running → endAccess s f (.done x) =
          settle (endScript (warned t) c .regionMiss sc.ordinals (BitVec.ofNat 32 (d + 1))))))

/-! ## Timers and lines -/

/-- R49, R58, R61, R63, R81, R151, R160: the timers of a channel as they run out. A presented request fails with
BUS_UNAVAILABLE; a DELAY completes; a POLL presents its next try; an AWAIT or ATTEND leaves its list and fails, or under SOFT
completes with a warning, and a consumer's departure is followed by an examination. -/
def Obligations.ScriptTimersRunOut : Prop :=
  ∀ (s : State) (c : ChanId) (st : Step), s.ready = true → s.step? c = some st →
    (∀ r, s.presentedOf c = some r → (s.chan c).grantLimit ≠ 0 → exec (.grantWaitExpiry c) s = .next (settle (endScript
      (s.setPresented c none) c .busUnavailable (ordinalOf s c) (match st.progress with
        | .blockIn d _ _ => BitVec.ofNat 32 d
        | .blockOut d _ _ => BitVec.ofNat 32 d
        | _ => (StepRecord.addr st.bits).setWidth 32)))) ∧
    ((s.chan c).st = .running → (s.chan c).timer.isSome = true →
      (StepRecord.kind st.bits = some .delay → exec (.delayExpiry c) s = .next (settle (completeStep s c))) ∧
      (∀ t v, StepRecord.kind st.bits = some .poll → st.progress = .poll t v → s.own.mode ≠ .isolated →
        exec (.pollIntervalExpiry c) s = .next (settle (joinSet (s.setChan c { s.chan c with timer := none }) c
          (request s c st .pollTry (StepRecord.addr st.bits) none))))) ∧
    let soft (t : State) (e : Status) : State :=
      if StepRecord.soft st.bits then completeStep (t.warn c warnSoftTimeout) c else endScript t c e (ordinalOf s c) 0
    let n := StepRecord.index st.bits
    (st.progress = .waiting → StepRecord.kind st.bits = some .await →
      ∀ w, (s.counter n).waiters.find? (fun w => w.chan == c) = some w → w.timeout.isSome = true →
      let left := s.setCounter n { s.counter n with waiters := (s.counter n).waiters.filter fun w => w.chan != c }
      exec (.awaitTimeout c) s = .next (settle (soft (if w.consume then examine left n else left) .syncTimeout))) ∧
    (st.progress = .waiting → StepRecord.kind st.bits = some .attend →
      (∃ w ∈ (s.line n).waiters, w.chan = c ∧ w.timeout.isSome = true) →
      let left := s.setLine n { s.line n with waiters := (s.line n).waiters.filter fun w => w.chan != c }
      exec (.attendTimeout c) s = .next (settle (soft left .attnTimeout)))

/-- R105, R110, R111, R113 to R115, R118, R125 to R127, R129, R130, R133, R211: the timers of the port as they run out, and the
wrap of the timebase. The turnaround leads to HOLDING or to the mode of a passage, whose command is answered unless a bridge
reset has abandoned it; a lease is reported and goes on; a lock break withdraws the holder's request and ends its script, in
ABORTING and FAULTED releasing the lock alone, or waits for the access; the hold limit makes claim 3 stand; a pulse empties the
store and the counts, its command is answered in the same way, and a BRST still asserted is then observed; a waiting command
times out. -/
def Obligations.PortTimersRunOut : Prop :=
  ∀ s : State,
    let held (t : State) : State := { t with own := { t.own with
      state := .holding, turnTimer := none, holdPassed := false,
      holdTimer := if t.own.mode = .guest ∧ t.own.params.holdLimit ≠ 0 then some t.own.params.holdLimit else none } }
    let left (m : PortMode) : Ownership := { s.own with mode := m, passage := none, turnTimer := none }
    let turn := s.own.params.turnaround
    let lease := s.own.params.leaseLimit
    let entered : PortMode → Ownership := fun
      | .isolated => left .isolated
      | .master =>
        if s.own.req then { left .master with state := .granted, leaseTimer := if lease = 0 then none else some lease }
        else if turn = 0 then { left .master with state := .holding, holdTimer := none, holdPassed := false }
        else { left .master with state := .settling, turnTimer := some turn }
      | .guest => { left .guest with state :=
          if s.own.gnt = true ∨ ∀ c, s.presentedOf c = none then .released else .requesting }
    let answered (t : State) (on : AdminWait) (d : Detail) (u : State) : Prop :=
      let silent : State := { t with own := { t.own with answers := false } }
      (∀ id, s.own.answers = true → s.admin.progress = .waiting id on → u = adminAnswer silent id .ok d) ∧
      (s.own.answers = false ∨ (∀ id, s.admin.progress ≠ .waiting id on) → u = silent)
    (s.own.turnTimer.isSome = true →
      (s.own.passage = none → s.own.state = .settling → exec .turnaroundExpiry s = .next (settle (held s))) ∧
      ∀ m, s.own.passage = some m →
        ∃ u, exec .turnaroundExpiry s = .next (settle u) ∧ answered { s with own := entered m } .portMode 0 u) ∧
    (s.own.state = .granted → s.own.leaseTimer.isSome = true →
      exec .leaseExpiry s = .next (raiseEvent { s with own := { s.own with leaseTimer := none } } .leaseOverrun 0 0)) ∧
    (s.own.lockTimer.isSome = true →
      (s.arb.inflight.isSome = true → exec .lockTimerExpiry s =
        .next { s with own := { s.own with lockTimer := none, breakDue := true } }) ∧
      (s.arb.inflight = none →
        (s.arb.lock = none → exec .lockTimerExpiry s =
          .next (settle { s with own := { s.own with lockTimer := none } })) ∧
        ∀ h k, s.arb.lock = some (h, k) →
          let free : State := { s with
            arb := { s.arb with lock := none, presented := s.arb.presented.set h none },
            own := { s.own with lockTimer := none } }
          let reached : Prop := (s.chan h).st = .running ∨ (s.chan h).st = .pausing ∨ (s.chan h).st = .paused
          (∀ sc, reached → (s.chan h).script = some sc → sc.ending = none →
            exec .lockTimerExpiry s = .next (settle (endScript free h .lockBroken
              (match sc.current with
                | some _ => sc.ordinals
                | none => sc.ordinals + 1)
              (match sc.current with
                | some st => (match st.progress with
                  | .modWrite _ false => 0x80000000
                  | .blockIn d _ _ => BitVec.ofNat 32 d
                  | .blockOut d _ _ => BitVec.ofNat 32 d
                  | _ => 0)
                | none => 0)))) ∧
          (¬ reached ∨ ¬ Unended s h → exec .lockTimerExpiry s = .next (settle free)))) ∧
    (s.own.state = .holding → s.own.holdTimer.isSome = true →
      exec .holdTimerExpiry s = .next (settle { s with own := { s.own with holdTimer := none, holdPassed := true } })) ∧
    (s.own.state = .pulsing → s.own.pulseTimer.isSome = true →
      let emptied (t : State) (src : Nat) : State := raiseEvent { t with
        shadow := [], attn := t.attn.map fun l => { l with count := 0, saturated := false } } .brstReset src 0
      ∃ u, answered (held (emptied { s with own := { s.own with pulseTimer := none } } 0)) .pulse
          (BitVec.ofNat 32 s.shadow.length) u ∧
        (s.own.brst = false → exec .pulseEnd s = .next (settle u)) ∧
        (s.own.brst = true → s.arb.inflight = none → exec .pulseEnd s = .next (settle (emptied u 1)))) ∧
    (∀ cmd id, s.own.cmd = some cmd → s.own.changeTimer.isSome = true →
      s.admin.progress = .waiting id (match cmd with
        | .setMode _ _ => .portMode
        | .reset _ => .pulse) →
      exec .changeTimerExpiry s = .next (adminAnswer { s with own := { s.own with cmd := none, changeTimer := none } } id
        .timedOut (BitVec.ofNat 32 s.own.state.code))) ∧
    (s.ready = true → s.timebase = 0xFFFFFFFF → exec .timebaseWrap s = .next { s with timebase := 0 })

/-- R72, R87, R106 to R112, R116, R117, R119, R124, R130, R132: changes of REQ, GNT and BRST. A REQ that rises under a lock
starts the lock timer; the fall of REQ ends a lease, where a waiting SET_PORT_MODE acts and otherwise the port settles, or
HOLDS at turnaround 0. GNT gives a REQUESTING bridge the bus, and its fall takes the bus away, after the access in flight: a
held lock is broken, PREEMPTED is raised, and a waiting SET_PORT_MODE acts or the bus is asked for again. A reset observed on
BRST ends an access in flight, empties the store and clears the counts. The model's choices: a line that already stands at the
level gives no change (log entry 1), and the whole end of the access comes before the store is emptied (log entry 14). -/
def Obligations.BusLinesChange : Prop :=
  ∀ s : State,
    let turn := s.own.params.turnaround
    let lockTimer : Option Nat := if s.own.params.lockLimit = 0 then none else some s.own.params.lockLimit
    (s.own.req = true → exec .reqRise s = .next s) ∧
    (s.own.req = false →
      exec .reqFall s = .next s ∧
      exec .reqRise s = .next (settle { s with own := { s.own with
        req := true,
        lockTimer := if s.own.mode = .master ∧ s.own.state = .holding ∧ s.arb.lock.isSome = true ∧
          s.own.lockTimer = none ∧ s.own.breakDue = false then lockTimer else s.own.lockTimer } })) ∧
    (s.own.req = true →
      (¬ (s.own.mode = .master ∧ s.own.state = .granted) →
        exec .reqFall s = .next { s with own := { s.own with req := false, lockTimer := none } }) ∧
      (s.own.mode = .master → s.own.state = .granted →
        (∀ m p, s.own.cmd = some (.setMode m p) → exec .reqFall s = .next (settle (changeMode
          { s with own := { s.own with req := false, lockTimer := none, leaseTimer := none } } m p))) ∧
        ((∀ m p, s.own.cmd ≠ some (.setMode m p)) →
          (turn ≠ 0 → exec .reqFall s = .next (settle { s with own := { s.own with
            req := false, lockTimer := none, leaseTimer := none, state := .settling, turnTimer := some turn } })) ∧
          (turn = 0 → exec .reqFall s = .next (settle { s with own := { s.own with
            req := false, lockTimer := none, leaseTimer := none, state := .holding, turnTimer := none, holdTimer := none,
            holdPassed := false } }))))) ∧
    (s.own.gnt = true → exec .gntRise s = .next s) ∧
    (s.own.gnt = false →
      exec .gntFall s = .next s ∧
      (s.own.mode = .guest → s.own.state = .requesting →
        (turn ≠ 0 → exec .gntRise s = .next (settle
          { s with own := { s.own with gnt := true, state := .settling, turnTimer := some turn } })) ∧
        (turn = 0 → exec .gntRise s = .next (settle
          { s with own := { s.own with
            gnt := true, state := .holding, turnTimer := none, holdPassed := false,
            holdTimer := if s.own.params.holdLimit = 0 then none else some s.own.params.holdLimit } }))) ∧
      (¬ (s.own.mode = .guest ∧ s.own.state = .requesting) →
        exec .gntRise s = .next { s with own := { s.own with gnt := true } })) ∧
    (s.own.gnt = true →
      let low := { s with own := { s.own with gnt := false } }
      let out (t : State) (st : OwnState) : State := raiseEvent { t with own := { t.own with
        state := st, holdTimer := none, turnTimer := none, holdPassed := false, preemptDue := false } } .preempted 0 0
      (s.own.mode ≠ .guest → exec .gntFall s = .next low) ∧
      (s.own.mode = .guest → s.own.state = .released ∨ s.own.state = .requesting → exec .gntFall s = .next (
        if ∀ c, s.presentedOf c = none then low else { low with own := { low.own with state := .requesting } })) ∧
      (s.own.mode = .guest → s.own.state = .holding ∨ s.own.state = .settling →
        (s.arb.inflight.isSome = true → exec .gntFall s =
          .next { low with own := { low.own with preemptDue := true } }) ∧
        (s.arb.inflight = none →
          (s.arb.lock = none → (∀ m p, s.own.cmd = some (.setMode m p) →
            exec .gntFall s = .next (settle (changeMode (out low .released) m p))) ∧
            ((∀ m p, s.own.cmd ≠ some (.setMode m p)) → exec .gntFall s = .next (settle (out low
              (if ∀ c, s.presentedOf c = none then .released else .requesting))))) ∧
          (∀ h k, s.arb.lock = some (h, k) →
            let free : State := { low with
              arb := { s.arb with lock := none, presented := s.arb.presented.set h none },
              own := { low.own with lockTimer := none } }
            let reached : Prop := (s.chan h).st = .running ∨ (s.chan h).st = .pausing ∨ (s.chan h).st = .paused
            ∃ broken,
              (∀ sc, reached → (s.chan h).script = some sc → sc.ending = none →
                broken = endScript free h .lockBroken
                  (match sc.current with
                    | some _ => sc.ordinals
                    | none => sc.ordinals + 1)
                  (match sc.current with
                    | some st => (match st.progress with
                      | .modWrite _ false => 0x80000000
                      | .blockIn d _ _ => BitVec.ofNat 32 d
                      | .blockOut d _ _ => BitVec.ofNat 32 d
                      | _ => 0)
                    | none => 0)) ∧
              (¬ reached ∨ ¬ Unended s h → broken = free) ∧
              (∀ m p, s.own.cmd = some (.setMode m p) →
                exec .gntFall s = .next (settle (changeMode (out broken .released) m p))) ∧
              ((∀ m p, s.own.cmd ≠ some (.setMode m p)) → exec .gntFall s = .next (settle (out broken
                (if ∀ c, c ≠ h → s.presentedOf c = none then .released else .requesting)))))))) ∧
    let observed (t : State) : State := raiseEvent { t with
      shadow := [], attn := t.attn.map fun l => { l with count := 0, saturated := false } } .brstReset 1 0
    (s.own.brst = true → exec .observedReset s = .next s ∧
      exec .brstRelease s = .next (settle { s with own := { s.own with brst := false } })) ∧
    (s.own.brst = false →
      let high : State := { s with own := { s.own with brst := true } }
      exec .brstRelease s = .next s ∧
      (s.own.state ≠ .pulsing → s.ready = true ∨ s.cause ≠ .powerOn →
        (s.arb.inflight = none → exec .observedReset s = .next (observed high)) ∧
        (∀ f, s.arb.inflight = some f →
          exec .observedReset s = .next (observed (endAccess high f (.failed .resetDuringAccess))))) ∧
      (s.own.state = .pulsing ∨ s.ready = false ∧ s.cause = .powerOn → exec .observedReset s = .next high))

/-- R147 to R150, R155, R206, R210: an assertion edge raises ATTENTION on an EVENT line; on an EDGE line routed to WAIT it is
consumed by the oldest waiter, or counted up to 15, or lost with the saturated flag set; on a LEVEL line it releases every
waiter. Edges go on being counted and raised during a bridge reset. The level is followed in every case, alone while the bridge
initialises, and its release brings nothing about. That an edge on a line already asserted has no effect is the model's choice,
log entry 1. -/
def Obligations.AttentionLinesChange : Prop :=
  ∀ (s : State) (n : LineId),
    let l := s.line n
    let up := { l with level := true }
    exec (.attentionLineRelease n) s = .next (s.setLine n { l with level := false }) ∧
    (l.level = true → exec (.assertionEdge n) s = .next s) ∧
    (l.level = false → l.mode = .off ∨ s.ready = false ∧ s.cause = .powerOn →
      exec (.assertionEdge n) s = .next (s.setLine n up)) ∧
    (l.level = false → s.ready = true ∨ s.cause ≠ .powerOn →
      (l.mode = .edge → l.route = .event →
        exec (.assertionEdge n) s = .next (raiseEvent (s.setLine n up) .attention n.val 0)) ∧
      (l.mode = .edge → l.route = .wait →
        (∀ w ws, l.waiters = w :: ws → exec (.assertionEdge n) s = .next (settle
          ((s.setLine n { up with waiters := ws, saturated := false }).setProgress w.chan (.released l.saturated)))) ∧
        (l.waiters = [] → l.count < 15 →
          exec (.assertionEdge n) s = .next (settle (s.setLine n { up with count := l.count + 1 }))) ∧
        (l.waiters = [] → 15 ≤ l.count →
          exec (.assertionEdge n) s = .next (settle (s.setLine n { up with saturated := true })))) ∧
      (l.mode = .level → l.route = .wait → exec (.assertionEdge n) s = .next (settle
        ((l.waiters.map fun w => w.chan).foldl (fun t c => t.setProgress c (.released false))
          (s.setLine n { up with waiters := [] })))))
end

