-- ==== Sys2Proof/Laws/State.lean ====
section
/-! SUPPORT. Reading a field after an update. Every update of one channel comes down to `setChan`; each update leaves every field
of the state but its own. -/

namespace Sys2Proof.Machine

/-! ## Every update of a channel is a `setChan` -/

@[simp] theorem modChan_eq (s : State) (c : ChanId) (f : Channel → Channel) : s.modChan c f = s.setChan c (f (s.chan c)) :=
  rfl

@[simp] theorem modScript_eq (s : State) (c : ChanId) (f : Script → Script) :
    s.modScript c f = s.setChan c { s.chan c with script := (s.chan c).script.map f } := rfl

@[simp] theorem setWait_eq (s : State) (c : ChanId) (w : WaitReason) :
    s.setWait c w = s.setChan c { s.chan c with wait := w } := rfl

@[simp] theorem modRings_eq (s : State) (c : ChanId) (f : RingPair → RingPair) :
    s.modRings c f = s.setChan c { s.chan c with rings := (s.chan c).rings.map f } := rfl

@[simp] theorem setProgress_eq (s : State) (c : ChanId) (p : Progress) :
    s.setProgress c p = s.setChan c { s.chan c with
      script := (s.chan c).script.map fun sc => { sc with current := sc.current.map fun st => { st with progress := p } } } :=
  rfl

@[simp] theorem warn_eq (s : State) (c : ChanId) (f : Warnings → Warnings) :
    s.warn c f = s.setChan c { s.chan c with
      script := (s.chan c).script.map fun sc => { sc with warnings := f sc.warnings } } := rfl

/-! ## What each update leaves as it was -/

@[simp] theorem setChan_pending (s : State) (c : ChanId) (x : Channel) : (s.setChan c x).pending = s.pending := rfl
@[simp] theorem setChan_ready (s : State) (c : ChanId) (x : Channel) : (s.setChan c x).ready = s.ready := rfl
@[simp] theorem setChan_cause (s : State) (c : ChanId) (x : Channel) : (s.setChan c x).cause = s.cause := rfl
@[simp] theorem setChan_enable (s : State) (c : ChanId) (x : Channel) : (s.setChan c x).enable = s.enable := rfl
@[simp] theorem setChan_timebase (s : State) (c : ChanId) (x : Channel) : (s.setChan c x).timebase = s.timebase := rfl
@[simp] theorem setChan_admin (s : State) (c : ChanId) (x : Channel) : (s.setChan c x).admin = s.admin := rfl
@[simp] theorem setChan_arb (s : State) (c : ChanId) (x : Channel) : (s.setChan c x).arb = s.arb := rfl
@[simp] theorem setChan_regions (s : State) (c : ChanId) (x : Channel) : (s.setChan c x).regions = s.regions := rfl
@[simp] theorem setChan_regionWait (s : State) (c : ChanId) (x : Channel) : (s.setChan c x).regionWait = s.regionWait := rfl
@[simp] theorem setChan_own (s : State) (c : ChanId) (x : Channel) : (s.setChan c x).own = s.own := rfl
@[simp] theorem setChan_shadow (s : State) (c : ChanId) (x : Channel) : (s.setChan c x).shadow = s.shadow := rfl
@[simp] theorem setChan_attn (s : State) (c : ChanId) (x : Channel) : (s.setChan c x).attn = s.attn := rfl
@[simp] theorem setChan_sync (s : State) (c : ChanId) (x : Channel) : (s.setChan c x).sync = s.sync := rfl
@[simp] theorem setChan_events (s : State) (c : ChanId) (x : Channel) : (s.setChan c x).events = s.events := rfl
@[simp] theorem setChan_vectors (s : State) (c : ChanId) (x : Channel) : (s.setChan c x).vectors = s.vectors := rfl

@[simp] theorem setPresented_pending (s : State) (c : ChanId) (x : Option Request) : (s.setPresented c x).pending = s.pending := rfl
@[simp] theorem setPresented_ready (s : State) (c : ChanId) (x : Option Request) : (s.setPresented c x).ready = s.ready := rfl
@[simp] theorem setPresented_cause (s : State) (c : ChanId) (x : Option Request) : (s.setPresented c x).cause = s.cause := rfl
@[simp] theorem setPresented_enable (s : State) (c : ChanId) (x : Option Request) : (s.setPresented c x).enable = s.enable := rfl
@[simp] theorem setPresented_timebase (s : State) (c : ChanId) (x : Option Request) : (s.setPresented c x).timebase = s.timebase := rfl
@[simp] theorem setPresented_admin (s : State) (c : ChanId) (x : Option Request) : (s.setPresented c x).admin = s.admin := rfl
@[simp] theorem setPresented_chans (s : State) (c : ChanId) (x : Option Request) : (s.setPresented c x).chans = s.chans := rfl
@[simp] theorem setPresented_regions (s : State) (c : ChanId) (x : Option Request) : (s.setPresented c x).regions = s.regions := rfl
@[simp] theorem setPresented_regionWait (s : State) (c : ChanId) (x : Option Request) : (s.setPresented c x).regionWait = s.regionWait := rfl
@[simp] theorem setPresented_own (s : State) (c : ChanId) (x : Option Request) : (s.setPresented c x).own = s.own := rfl
@[simp] theorem setPresented_shadow (s : State) (c : ChanId) (x : Option Request) : (s.setPresented c x).shadow = s.shadow := rfl
@[simp] theorem setPresented_attn (s : State) (c : ChanId) (x : Option Request) : (s.setPresented c x).attn = s.attn := rfl
@[simp] theorem setPresented_sync (s : State) (c : ChanId) (x : Option Request) : (s.setPresented c x).sync = s.sync := rfl
@[simp] theorem setPresented_events (s : State) (c : ChanId) (x : Option Request) : (s.setPresented c x).events = s.events := rfl
@[simp] theorem setPresented_vectors (s : State) (c : ChanId) (x : Option Request) : (s.setPresented c x).vectors = s.vectors := rfl

@[simp] theorem setLine_pending (s : State) (n : LineId) (x : AttnLine) : (s.setLine n x).pending = s.pending := rfl
@[simp] theorem setLine_ready (s : State) (n : LineId) (x : AttnLine) : (s.setLine n x).ready = s.ready := rfl
@[simp] theorem setLine_cause (s : State) (n : LineId) (x : AttnLine) : (s.setLine n x).cause = s.cause := rfl
@[simp] theorem setLine_enable (s : State) (n : LineId) (x : AttnLine) : (s.setLine n x).enable = s.enable := rfl
@[simp] theorem setLine_timebase (s : State) (n : LineId) (x : AttnLine) : (s.setLine n x).timebase = s.timebase := rfl
@[simp] theorem setLine_admin (s : State) (n : LineId) (x : AttnLine) : (s.setLine n x).admin = s.admin := rfl
@[simp] theorem setLine_chans (s : State) (n : LineId) (x : AttnLine) : (s.setLine n x).chans = s.chans := rfl
@[simp] theorem setLine_arb (s : State) (n : LineId) (x : AttnLine) : (s.setLine n x).arb = s.arb := rfl
@[simp] theorem setLine_regions (s : State) (n : LineId) (x : AttnLine) : (s.setLine n x).regions = s.regions := rfl
@[simp] theorem setLine_regionWait (s : State) (n : LineId) (x : AttnLine) : (s.setLine n x).regionWait = s.regionWait := rfl
@[simp] theorem setLine_own (s : State) (n : LineId) (x : AttnLine) : (s.setLine n x).own = s.own := rfl
@[simp] theorem setLine_shadow (s : State) (n : LineId) (x : AttnLine) : (s.setLine n x).shadow = s.shadow := rfl
@[simp] theorem setLine_sync (s : State) (n : LineId) (x : AttnLine) : (s.setLine n x).sync = s.sync := rfl
@[simp] theorem setLine_events (s : State) (n : LineId) (x : AttnLine) : (s.setLine n x).events = s.events := rfl
@[simp] theorem setLine_vectors (s : State) (n : LineId) (x : AttnLine) : (s.setLine n x).vectors = s.vectors := rfl

@[simp] theorem setCounter_pending (s : State) (k : CounterId) (x : SyncCounter) : (s.setCounter k x).pending = s.pending := rfl
@[simp] theorem setCounter_ready (s : State) (k : CounterId) (x : SyncCounter) : (s.setCounter k x).ready = s.ready := rfl
@[simp] theorem setCounter_cause (s : State) (k : CounterId) (x : SyncCounter) : (s.setCounter k x).cause = s.cause := rfl
@[simp] theorem setCounter_enable (s : State) (k : CounterId) (x : SyncCounter) : (s.setCounter k x).enable = s.enable := rfl
@[simp] theorem setCounter_timebase (s : State) (k : CounterId) (x : SyncCounter) : (s.setCounter k x).timebase = s.timebase := rfl
@[simp] theorem setCounter_admin (s : State) (k : CounterId) (x : SyncCounter) : (s.setCounter k x).admin = s.admin := rfl
@[simp] theorem setCounter_chans (s : State) (k : CounterId) (x : SyncCounter) : (s.setCounter k x).chans = s.chans := rfl
@[simp] theorem setCounter_arb (s : State) (k : CounterId) (x : SyncCounter) : (s.setCounter k x).arb = s.arb := rfl
@[simp] theorem setCounter_regions (s : State) (k : CounterId) (x : SyncCounter) : (s.setCounter k x).regions = s.regions := rfl
@[simp] theorem setCounter_regionWait (s : State) (k : CounterId) (x : SyncCounter) : (s.setCounter k x).regionWait = s.regionWait := rfl
@[simp] theorem setCounter_own (s : State) (k : CounterId) (x : SyncCounter) : (s.setCounter k x).own = s.own := rfl
@[simp] theorem setCounter_shadow (s : State) (k : CounterId) (x : SyncCounter) : (s.setCounter k x).shadow = s.shadow := rfl
@[simp] theorem setCounter_attn (s : State) (k : CounterId) (x : SyncCounter) : (s.setCounter k x).attn = s.attn := rfl
@[simp] theorem setCounter_events (s : State) (k : CounterId) (x : SyncCounter) : (s.setCounter k x).events = s.events := rfl
@[simp] theorem setCounter_vectors (s : State) (k : CounterId) (x : SyncCounter) : (s.setCounter k x).vectors = s.vectors := rfl

@[simp] theorem setRegion_pending (s : State) (i : RegionId) (x : Option Region) : (s.setRegion i x).pending = s.pending := rfl
@[simp] theorem setRegion_ready (s : State) (i : RegionId) (x : Option Region) : (s.setRegion i x).ready = s.ready := rfl
@[simp] theorem setRegion_cause (s : State) (i : RegionId) (x : Option Region) : (s.setRegion i x).cause = s.cause := rfl
@[simp] theorem setRegion_enable (s : State) (i : RegionId) (x : Option Region) : (s.setRegion i x).enable = s.enable := rfl
@[simp] theorem setRegion_timebase (s : State) (i : RegionId) (x : Option Region) : (s.setRegion i x).timebase = s.timebase := rfl
@[simp] theorem setRegion_admin (s : State) (i : RegionId) (x : Option Region) : (s.setRegion i x).admin = s.admin := rfl
@[simp] theorem setRegion_chans (s : State) (i : RegionId) (x : Option Region) : (s.setRegion i x).chans = s.chans := rfl
@[simp] theorem setRegion_arb (s : State) (i : RegionId) (x : Option Region) : (s.setRegion i x).arb = s.arb := rfl
@[simp] theorem setRegion_regionWait (s : State) (i : RegionId) (x : Option Region) : (s.setRegion i x).regionWait = s.regionWait := rfl
@[simp] theorem setRegion_own (s : State) (i : RegionId) (x : Option Region) : (s.setRegion i x).own = s.own := rfl
@[simp] theorem setRegion_shadow (s : State) (i : RegionId) (x : Option Region) : (s.setRegion i x).shadow = s.shadow := rfl
@[simp] theorem setRegion_attn (s : State) (i : RegionId) (x : Option Region) : (s.setRegion i x).attn = s.attn := rfl
@[simp] theorem setRegion_sync (s : State) (i : RegionId) (x : Option Region) : (s.setRegion i x).sync = s.sync := rfl
@[simp] theorem setRegion_events (s : State) (i : RegionId) (x : Option Region) : (s.setRegion i x).events = s.events := rfl
@[simp] theorem setRegion_vectors (s : State) (i : RegionId) (x : Option Region) : (s.setRegion i x).vectors = s.vectors := rfl

@[simp] theorem setVector_pending (s : State) (v : VectorId) (x : IntVector) : (s.setVector v x).pending = s.pending := rfl
@[simp] theorem setVector_ready (s : State) (v : VectorId) (x : IntVector) : (s.setVector v x).ready = s.ready := rfl
@[simp] theorem setVector_cause (s : State) (v : VectorId) (x : IntVector) : (s.setVector v x).cause = s.cause := rfl
@[simp] theorem setVector_enable (s : State) (v : VectorId) (x : IntVector) : (s.setVector v x).enable = s.enable := rfl
@[simp] theorem setVector_timebase (s : State) (v : VectorId) (x : IntVector) : (s.setVector v x).timebase = s.timebase := rfl
@[simp] theorem setVector_admin (s : State) (v : VectorId) (x : IntVector) : (s.setVector v x).admin = s.admin := rfl
@[simp] theorem setVector_chans (s : State) (v : VectorId) (x : IntVector) : (s.setVector v x).chans = s.chans := rfl
@[simp] theorem setVector_arb (s : State) (v : VectorId) (x : IntVector) : (s.setVector v x).arb = s.arb := rfl
@[simp] theorem setVector_regions (s : State) (v : VectorId) (x : IntVector) : (s.setVector v x).regions = s.regions := rfl
@[simp] theorem setVector_regionWait (s : State) (v : VectorId) (x : IntVector) : (s.setVector v x).regionWait = s.regionWait := rfl
@[simp] theorem setVector_own (s : State) (v : VectorId) (x : IntVector) : (s.setVector v x).own = s.own := rfl
@[simp] theorem setVector_shadow (s : State) (v : VectorId) (x : IntVector) : (s.setVector v x).shadow = s.shadow := rfl
@[simp] theorem setVector_attn (s : State) (v : VectorId) (x : IntVector) : (s.setVector v x).attn = s.attn := rfl
@[simp] theorem setVector_sync (s : State) (v : VectorId) (x : IntVector) : (s.setVector v x).sync = s.sync := rfl
@[simp] theorem setVector_events (s : State) (v : VectorId) (x : IntVector) : (s.setVector v x).events = s.events := rfl

@[simp] theorem setProgressA_pending (s : State) (p : AdminProgress) : (s.setProgressA p).pending = s.pending := rfl
@[simp] theorem setProgressA_ready (s : State) (p : AdminProgress) : (s.setProgressA p).ready = s.ready := rfl
@[simp] theorem setProgressA_cause (s : State) (p : AdminProgress) : (s.setProgressA p).cause = s.cause := rfl
@[simp] theorem setProgressA_enable (s : State) (p : AdminProgress) : (s.setProgressA p).enable = s.enable := rfl
@[simp] theorem setProgressA_timebase (s : State) (p : AdminProgress) : (s.setProgressA p).timebase = s.timebase := rfl
@[simp] theorem setProgressA_chans (s : State) (p : AdminProgress) : (s.setProgressA p).chans = s.chans := rfl
@[simp] theorem setProgressA_arb (s : State) (p : AdminProgress) : (s.setProgressA p).arb = s.arb := rfl
@[simp] theorem setProgressA_regions (s : State) (p : AdminProgress) : (s.setProgressA p).regions = s.regions := rfl
@[simp] theorem setProgressA_regionWait (s : State) (p : AdminProgress) : (s.setProgressA p).regionWait = s.regionWait := rfl
@[simp] theorem setProgressA_own (s : State) (p : AdminProgress) : (s.setProgressA p).own = s.own := rfl
@[simp] theorem setProgressA_shadow (s : State) (p : AdminProgress) : (s.setProgressA p).shadow = s.shadow := rfl
@[simp] theorem setProgressA_attn (s : State) (p : AdminProgress) : (s.setProgressA p).attn = s.attn := rfl
@[simp] theorem setProgressA_sync (s : State) (p : AdminProgress) : (s.setProgressA p).sync = s.sync := rfl
@[simp] theorem setProgressA_events (s : State) (p : AdminProgress) : (s.setProgressA p).events = s.events := rfl
@[simp] theorem setProgressA_vectors (s : State) (p : AdminProgress) : (s.setProgressA p).vectors = s.vectors := rfl

/-! ## Reading back -/

@[simp] theorem chan_setChan_self (s : State) (c : ChanId) (x : Channel) : (s.setChan c x).chan c = x := by
  simp [State.setChan, State.chan]

@[simp] theorem chan_setChan_ne (s : State) {c d : ChanId} (h : d ≠ c) (x : Channel) :
    (s.setChan c x).chan d = s.chan d := by
  have : c.val ≠ d.val := fun e => h (Fin.ext e.symm)
  simp [State.setChan, State.chan, this]

@[simp] theorem setChan_setChan (s : State) (c : ChanId) (x y : Channel) : (s.setChan c x).setChan c y = s.setChan c y := by
  simp [State.setChan, Vector.set_set]

@[simp] theorem setChan_chan (s : State) (c : ChanId) : s.setChan c (s.chan c) = s := by
  simp [State.setChan, State.chan]

@[simp] theorem presentedOf_setPresented_self (s : State) (c : ChanId) (x : Option Request) :
    (s.setPresented c x).presentedOf c = x := by
  simp [State.setPresented, State.presentedOf]

@[simp] theorem presentedOf_setPresented_ne (s : State) {c d : ChanId} (h : d ≠ c) (x : Option Request) :
    (s.setPresented c x).presentedOf d = s.presentedOf d := by
  have : c.val ≠ d.val := fun e => h (Fin.ext e.symm)
  simp [State.setPresented, State.presentedOf, this]

@[simp] theorem line_setLine_self (s : State) (n : LineId) (x : AttnLine) : (s.setLine n x).line n = x := by
  simp [State.setLine, State.line]

@[simp] theorem line_setLine_ne (s : State) {n m : LineId} (h : m ≠ n) (x : AttnLine) :
    (s.setLine n x).line m = s.line m := by
  have : n.val ≠ m.val := fun e => h (Fin.ext e.symm)
  simp [State.setLine, State.line, this]

@[simp] theorem setLine_setLine (s : State) (n : LineId) (x y : AttnLine) : (s.setLine n x).setLine n y = s.setLine n y := by
  simp [State.setLine, Vector.set_set]

@[simp] theorem setLine_line (s : State) (n : LineId) : s.setLine n (s.line n) = s := by
  simp [State.setLine, State.line]

@[simp] theorem counter_setCounter_self (s : State) (k : CounterId) (x : SyncCounter) : (s.setCounter k x).counter k = x := by
  simp [State.setCounter, State.counter]

@[simp] theorem counter_setCounter_ne (s : State) {k j : CounterId} (h : j ≠ k) (x : SyncCounter) :
    (s.setCounter k x).counter j = s.counter j := by
  have : k.val ≠ j.val := fun e => h (Fin.ext e.symm)
  simp [State.setCounter, State.counter, this]

@[simp] theorem setCounter_setCounter (s : State) (k : CounterId) (x y : SyncCounter) :
    (s.setCounter k x).setCounter k y = s.setCounter k y := by
  simp [State.setCounter, Vector.set_set]

@[simp] theorem setCounter_counter (s : State) (k : CounterId) : s.setCounter k (s.counter k) = s := by
  simp [State.setCounter, State.counter]

@[simp] theorem vector_setVector_self (s : State) (v : VectorId) (x : IntVector) : (s.setVector v x).vector v = x := by
  simp [State.setVector, State.vector]

@[simp] theorem vector_setVector_ne (s : State) {v w : VectorId} (h : w ≠ v) (x : IntVector) :
    (s.setVector v x).vector w = s.vector w := by
  have : v.val ≠ w.val := fun e => h (Fin.ext e.symm)
  simp [State.setVector, State.vector, this]

@[simp] theorem region_setRegion_self (s : State) (i : RegionId) (x : Option Region) : (s.setRegion i x).region i = x := by
  simp [State.setRegion, State.region]

@[simp] theorem region_setRegion_ne (s : State) {i j : RegionId} (h : j ≠ i) (x : Option Region) :
    (s.setRegion i x).region j = s.region j := by
  have : i.val ≠ j.val := fun e => h (Fin.ext e.symm)
  simp [State.setRegion, State.region, this]

@[simp] theorem setProgressA_progress (s : State) (p : AdminProgress) : (s.setProgressA p).admin.progress = p := rfl
@[simp] theorem setProgressA_ring (s : State) (p : AdminProgress) : (s.setProgressA p).admin.ring = s.admin.ring := rfl
@[simp] theorem setProgressA_fault (s : State) (p : AdminProgress) : (s.setProgressA p).admin.fault = s.admin.fault := rfl
@[simp] theorem setProgressA_reserved (s : State) (p : AdminProgress) :
    (s.setProgressA p).admin.reserved = s.admin.reserved := rfl
@[simp] theorem setPresented_inflight (s : State) (c : ChanId) (x : Option Request) :
    (s.setPresented c x).arb.inflight = s.arb.inflight := rfl
@[simp] theorem setPresented_lock (s : State) (c : ChanId) (x : Option Request) :
    (s.setPresented c x).arb.lock = s.arb.lock := rfl
@[simp] theorem setPresented_lastServed (s : State) (c : ChanId) (x : Option Request) :
    (s.setPresented c x).arb.lastServed = s.arb.lastServed := rfl

/-! ## Reading another part -/

@[simp] theorem line_setChan (s : State) (c : ChanId) (x : Channel) (m : LineId) : (s.setChan c x).line m = s.line m := rfl
@[simp] theorem counter_setChan (s : State) (c : ChanId) (x : Channel) (j : CounterId) : (s.setChan c x).counter j = s.counter j := rfl
@[simp] theorem region_setChan (s : State) (c : ChanId) (x : Channel) (i : RegionId) : (s.setChan c x).region i = s.region i := rfl
@[simp] theorem vector_setChan (s : State) (c : ChanId) (x : Channel) (w : VectorId) : (s.setChan c x).vector w = s.vector w := rfl
@[simp] theorem presentedOf_setChan (s : State) (c : ChanId) (x : Channel) (d : ChanId) : (s.setChan c x).presentedOf d = s.presentedOf d := rfl
@[simp] theorem chan_setPresented (s : State) (c : ChanId) (x : Option Request) (c' : ChanId) : (s.setPresented c x).chan c' = s.chan c' := rfl
@[simp] theorem line_setPresented (s : State) (c : ChanId) (x : Option Request) (m : LineId) : (s.setPresented c x).line m = s.line m := rfl
@[simp] theorem counter_setPresented (s : State) (c : ChanId) (x : Option Request) (j : CounterId) : (s.setPresented c x).counter j = s.counter j := rfl
@[simp] theorem region_setPresented (s : State) (c : ChanId) (x : Option Request) (i : RegionId) : (s.setPresented c x).region i = s.region i := rfl
@[simp] theorem vector_setPresented (s : State) (c : ChanId) (x : Option Request) (w : VectorId) : (s.setPresented c x).vector w = s.vector w := rfl
@[simp] theorem chan_setLine (s : State) (n : LineId) (x : AttnLine) (c : ChanId) : (s.setLine n x).chan c = s.chan c := rfl
@[simp] theorem counter_setLine (s : State) (n : LineId) (x : AttnLine) (j : CounterId) : (s.setLine n x).counter j = s.counter j := rfl
@[simp] theorem region_setLine (s : State) (n : LineId) (x : AttnLine) (i : RegionId) : (s.setLine n x).region i = s.region i := rfl
@[simp] theorem vector_setLine (s : State) (n : LineId) (x : AttnLine) (w : VectorId) : (s.setLine n x).vector w = s.vector w := rfl
@[simp] theorem presentedOf_setLine (s : State) (n : LineId) (x : AttnLine) (d : ChanId) : (s.setLine n x).presentedOf d = s.presentedOf d := rfl
@[simp] theorem chan_setCounter (s : State) (k : CounterId) (x : SyncCounter) (c : ChanId) : (s.setCounter k x).chan c = s.chan c := rfl
@[simp] theorem line_setCounter (s : State) (k : CounterId) (x : SyncCounter) (m : LineId) : (s.setCounter k x).line m = s.line m := rfl
@[simp] theorem region_setCounter (s : State) (k : CounterId) (x : SyncCounter) (i : RegionId) : (s.setCounter k x).region i = s.region i := rfl
@[simp] theorem vector_setCounter (s : State) (k : CounterId) (x : SyncCounter) (w : VectorId) : (s.setCounter k x).vector w = s.vector w := rfl
@[simp] theorem presentedOf_setCounter (s : State) (k : CounterId) (x : SyncCounter) (d : ChanId) : (s.setCounter k x).presentedOf d = s.presentedOf d := rfl
@[simp] theorem chan_setRegion (s : State) (i : RegionId) (x : Option Region) (c : ChanId) : (s.setRegion i x).chan c = s.chan c := rfl
@[simp] theorem line_setRegion (s : State) (i : RegionId) (x : Option Region) (m : LineId) : (s.setRegion i x).line m = s.line m := rfl
@[simp] theorem counter_setRegion (s : State) (i : RegionId) (x : Option Region) (j : CounterId) : (s.setRegion i x).counter j = s.counter j := rfl
@[simp] theorem vector_setRegion (s : State) (i : RegionId) (x : Option Region) (w : VectorId) : (s.setRegion i x).vector w = s.vector w := rfl
@[simp] theorem presentedOf_setRegion (s : State) (i : RegionId) (x : Option Region) (d : ChanId) : (s.setRegion i x).presentedOf d = s.presentedOf d := rfl
@[simp] theorem chan_setVector (s : State) (v : VectorId) (x : IntVector) (c : ChanId) : (s.setVector v x).chan c = s.chan c := rfl
@[simp] theorem line_setVector (s : State) (v : VectorId) (x : IntVector) (m : LineId) : (s.setVector v x).line m = s.line m := rfl
@[simp] theorem counter_setVector (s : State) (v : VectorId) (x : IntVector) (j : CounterId) : (s.setVector v x).counter j = s.counter j := rfl
@[simp] theorem region_setVector (s : State) (v : VectorId) (x : IntVector) (i : RegionId) : (s.setVector v x).region i = s.region i := rfl
@[simp] theorem presentedOf_setVector (s : State) (v : VectorId) (x : IntVector) (d : ChanId) : (s.setVector v x).presentedOf d = s.presentedOf d := rfl
@[simp] theorem chan_setProgressA (s : State) (p : AdminProgress) (c : ChanId) : (s.setProgressA p).chan c = s.chan c := rfl
@[simp] theorem line_setProgressA (s : State) (p : AdminProgress) (m : LineId) : (s.setProgressA p).line m = s.line m := rfl
@[simp] theorem counter_setProgressA (s : State) (p : AdminProgress) (j : CounterId) : (s.setProgressA p).counter j = s.counter j := rfl
@[simp] theorem region_setProgressA (s : State) (p : AdminProgress) (i : RegionId) : (s.setProgressA p).region i = s.region i := rfl
@[simp] theorem vector_setProgressA (s : State) (p : AdminProgress) (w : VectorId) : (s.setProgressA p).vector w = s.vector w := rfl
@[simp] theorem presentedOf_setProgressA (s : State) (p : AdminProgress) (d : ChanId) : (s.setProgressA p).presentedOf d = s.presentedOf d := rfl


@[simp] theorem step?_def (s : State) (c : ChanId) : s.step? c = (s.chan c).script.bind fun sc => sc.current := rfl

end Sys2Proof.Machine
end

