-- ==== Sys2Proof/Laws/Kept.lean ====
section
/-! SUPPORT. What the work of channels leaves as it was: the relations `ChanKept`, `ChanWork` and `Kept`, and how they compose.
`ChanWork` is kept by everything a channel does in a happening but the service of the port; `Kept` by that service too. -/

namespace Sys2Proof.Machine

open Sys2Proof.Safety

/-! ## The relations -/

/-- What work on a channel leaves of it: its rings, or none; no reservation gained; nothing newly owed; its link stack, or,
while its script runs, one no longer or within its depth; no end undone; and no step started once the end is fixed. -/
structure ChanKept (a b : Channel) : Prop where
  rings : b.rings = a.rings ∨ b.rings = none
  reserved : b.reserved = true → a.reserved = true
  owes : Owes b → Owes a ∧ b.reserved = a.reserved
  links : ∀ sc', b.script = some sc' →
    ∃ sc, a.script = some sc ∧ ((sc'.links = sc.links ∨ sc.ending = none ∧
          (sc'.links.length ≤ sc.links.length ∨ sc'.links.length ≤ Config.linkDepth)) ∧
        sc'.ending = sc.ending ∧
        (sc'.current.isSome = true → sc.current.isSome = true ∨ sc.ending = none) ∨
      sc'.links = [] ∧ sc'.current = none ∧ sc'.ending.isSome = true)

/-- What the work of channels leaves of the state. -/
structure ChanWork (s t : State) : Prop where
  pending : t.pending = s.pending
  ready : t.ready = s.ready
  cause : t.cause = s.cause
  enable : t.enable = s.enable
  timebase : t.timebase = s.timebase
  regions : t.regions = s.regions
  regionWait : t.regionWait = s.regionWait
  shadow : t.shadow = s.shadow
  events : t.events = s.events
  vectors : t.vectors = s.vectors
  ring : t.admin.ring = s.admin.ring
  adminReserved : t.admin.reserved = s.admin.reserved
  adminFault : t.admin.fault = s.admin.fault
  progress : t.admin.progress = s.admin.progress ∨ ∃ id on, s.admin.progress = .waiting id on ∧ on ≠ .region
  inflight : t.arb.inflight = s.arb.inflight
  lastServed : t.arb.lastServed = s.arb.lastServed
  lock : t.arb.lock = s.arb.lock ∨ t.arb.lock = none
  own : ∃ st lt, t.own = { s.own with state := st, lockTimer := lt } ∧
    (st = s.own.state ∨ s.own.mode = .guest ∧ s.own.state = .released ∧ st = .requesting)
  lines : ∀ n, (t.line n).mode = (s.line n).mode ∧ (t.line n).route = (s.line n).route ∧
    (t.line n).level = (s.line n).level ∧ (t.line n).count ≤ (s.line n).count
  counters : ∀ k, (t.counter k).value ≤ (s.counter k).value ∨ (t.counter k).value ≤ Config.syncMax
  chans : ∀ c, ChanKept (s.chan c) (t.chan c)

/-- What the service of the port, breaks and faults leave of the state. -/
structure Kept (s t : State) : Prop where
  pending : t.pending = s.pending
  ready : t.ready = s.ready
  cause : t.cause = s.cause
  enable : t.enable = s.enable
  timebase : t.timebase = s.timebase
  regions : t.regions = s.regions
  regionWait : t.regionWait = s.regionWait
  shadow : t.shadow = s.shadow
  vectors : t.vectors = s.vectors
  ring : t.admin.ring = s.admin.ring
  adminReserved : t.admin.reserved = s.admin.reserved
  adminFault : t.admin.fault = s.admin.fault
  progress : t.admin.progress = s.admin.progress ∨ ∃ id on, s.admin.progress = .waiting id on ∧ on ≠ .region
  inflight : t.arb.inflight = s.arb.inflight ∨ s.arb.inflight = none ∧
    ∀ f, t.arb.inflight = some f → s.region f.index = some f.region ∧ f.region.holds f.addr = true
  levels : t.own.req = s.own.req ∧ t.own.gnt = s.own.gnt ∧ t.own.brst = s.own.brst
  lines : ∀ n, (t.line n).mode = (s.line n).mode ∧ (t.line n).route = (s.line n).route ∧
    (t.line n).level = (s.line n).level ∧ (t.line n).count ≤ (s.line n).count
  counters : ∀ k, (t.counter k).value ≤ (s.counter k).value ∨ (t.counter k).value ≤ Config.syncMax
  chans : ∀ c, ChanKept (s.chan c) (t.chan c)

/-! ## Composition -/

/-- A number raised at most to its bound, twice over. -/
theorem value_trans {a b c m : Nat} (h : b ≤ a ∨ b ≤ m) (g : c ≤ b ∨ c ≤ m) : c ≤ a ∨ c ≤ m := by omega

theorem ChanKept.refl (a : Channel) : ChanKept a a :=
  ⟨.inl rfl, id, fun h => ⟨h, rfl⟩, fun sc h => ⟨sc, h, .inl ⟨.inl rfl, rfl, .inl⟩⟩⟩

theorem ChanKept.trans {a b c : Channel} (h : ChanKept a b) (g : ChanKept b c) : ChanKept a c where
  rings := by
    rcases g.rings with e | e
    · rw [e]; exact h.rings
    · exact .inr e
  reserved := fun e => h.reserved (g.reserved e)
  owes := fun e => ⟨(h.owes (g.owes e).1).1, (g.owes e).2.trans (h.owes (g.owes e).1).2⟩
  links := fun sc'' e => by
    obtain ⟨sc', e', k'⟩ := g.links sc'' e
    obtain ⟨sc, e, k⟩ := h.links sc' e'
    refine ⟨sc, e, ?_⟩
    rcases k' with ⟨l, n, m⟩ | l
    · rcases k with ⟨l', n', m'⟩ | ⟨l', m', n'⟩
      · refine .inl ⟨?_, n.trans n', fun x => ?_⟩
        · rcases l with l | ⟨l, x⟩
          · rw [l]; exact l'
          · rcases l' with l' | ⟨l', y⟩
            · exact .inr ⟨n' ▸ l, l' ▸ x⟩
            · exact .inr ⟨l', value_trans y x⟩
        · rcases m x with y | y
          · exact m' y
          · exact .inr (n' ▸ y)
      · refine .inr ⟨?_, ?_, n ▸ n'⟩
        · rcases l with l | ⟨l, -⟩
          · exact l.trans l'
          · simp [l] at n'
        cases hc : sc''.current with
        | none => rfl
        | some x =>
          rcases m (by rw [hc]; rfl) with y | y
          · simp [m'] at y
          · simp [y] at n'
    · exact .inr l

theorem ChanWork.refl (s : State) : ChanWork s s where
  pending := rfl
  ready := rfl
  cause := rfl
  enable := rfl
  timebase := rfl
  regions := rfl
  regionWait := rfl
  shadow := rfl
  events := rfl
  vectors := rfl
  ring := rfl
  adminReserved := rfl
  adminFault := rfl
  progress := .inl rfl
  inflight := rfl
  lastServed := rfl
  lock := .inl rfl
  own := ⟨_, _, rfl, .inl rfl⟩
  lines := fun _ => ⟨rfl, rfl, rfl, Nat.le_refl _⟩
  counters := fun _ => .inl (Nat.le_refl _)
  chans := fun _ => ChanKept.refl _

theorem ChanWork.trans {s t u : State} (h : ChanWork s t) (g : ChanWork t u) : ChanWork s u where
  pending := g.pending.trans h.pending
  ready := g.ready.trans h.ready
  cause := g.cause.trans h.cause
  enable := g.enable.trans h.enable
  timebase := g.timebase.trans h.timebase
  regions := g.regions.trans h.regions
  regionWait := g.regionWait.trans h.regionWait
  shadow := g.shadow.trans h.shadow
  events := g.events.trans h.events
  vectors := g.vectors.trans h.vectors
  ring := g.ring.trans h.ring
  adminReserved := g.adminReserved.trans h.adminReserved
  adminFault := g.adminFault.trans h.adminFault
  progress := by
    rcases h.progress with e | e
    · rw [← e]; exact g.progress
    · exact .inr e
  inflight := g.inflight.trans h.inflight
  lastServed := g.lastServed.trans h.lastServed
  lock := by
    rcases g.lock with e | e
    · rw [e]; exact h.lock
    · exact .inr e
  own := by
    obtain ⟨a, x, e, k⟩ := h.own
    obtain ⟨b, y, e', k'⟩ := g.own
    refine ⟨b, y, by rw [e', e], ?_⟩
    rw [e] at k'
    rcases k' with rfl | ⟨m, z, rfl⟩
    · exact k
    · rcases k with rfl | ⟨_, _, rfl⟩
      · exact .inr ⟨m, z, rfl⟩
      · exact .inr ⟨m, by simp_all, rfl⟩
  lines := fun n => by
    obtain ⟨a, b, c, d⟩ := h.lines n
    obtain ⟨a', b', c', d'⟩ := g.lines n
    exact ⟨a'.trans a, b'.trans b, c'.trans c, Nat.le_trans d' d⟩
  counters := fun k => value_trans (h.counters k) (g.counters k)
  chans := fun c => (h.chans c).trans (g.chans c)

theorem ChanWork.kept {s t : State} (h : ChanWork s t) : Kept s t where
  pending := h.pending
  ready := h.ready
  cause := h.cause
  enable := h.enable
  timebase := h.timebase
  regions := h.regions
  regionWait := h.regionWait
  shadow := h.shadow
  vectors := h.vectors
  ring := h.ring
  adminReserved := h.adminReserved
  adminFault := h.adminFault
  progress := h.progress
  inflight := .inl h.inflight
  levels := by obtain ⟨_, _, e, _⟩ := h.own; rw [e]; exact ⟨rfl, rfl, rfl⟩
  lines := h.lines
  counters := h.counters
  chans := h.chans

theorem Kept.refl (s : State) : Kept s s := (ChanWork.refl s).kept

theorem Kept.trans {s t u : State} (h : Kept s t) (g : Kept t u) : Kept s u where
  pending := g.pending.trans h.pending
  ready := g.ready.trans h.ready
  cause := g.cause.trans h.cause
  enable := g.enable.trans h.enable
  timebase := g.timebase.trans h.timebase
  regions := g.regions.trans h.regions
  regionWait := g.regionWait.trans h.regionWait
  shadow := g.shadow.trans h.shadow
  vectors := g.vectors.trans h.vectors
  ring := g.ring.trans h.ring
  adminReserved := g.adminReserved.trans h.adminReserved
  adminFault := g.adminFault.trans h.adminFault
  progress := by
    rcases h.progress with e | e
    · rw [← e]; exact g.progress
    · exact .inr e
  inflight := by
    have er : ∀ i, t.region i = s.region i := fun i => by simp only [State.region, h.regions]
    rcases g.inflight with e | ⟨e, k⟩
    · rw [e]; exact h.inflight
    · rcases h.inflight with e' | ⟨e', -⟩
      · exact .inr ⟨e' ▸ e, fun f hf => by rw [← er]; exact k f hf⟩
      · exact .inr ⟨e', fun f hf => by rw [← er]; exact k f hf⟩
  levels := ⟨g.levels.1.trans h.levels.1, g.levels.2.1.trans h.levels.2.1, g.levels.2.2.trans h.levels.2.2⟩
  lines := fun n => by
    obtain ⟨a, b, c, d⟩ := h.lines n
    obtain ⟨a', b', c', d'⟩ := g.lines n
    exact ⟨a'.trans a, b'.trans b, c'.trans c, Nat.le_trans d' d⟩
  counters := fun k => value_trans (h.counters k) (g.counters k)
  chans := fun c => (h.chans c).trans (g.chans c)

/-- Work done for each of a list, one after the other. -/
theorem ChanWork.foldl {α : Type} (f : State → α → State) (h : ∀ s a, ChanWork s (f s a)) (l : List α) (s : State) :
    ChanWork s (l.foldl f s) := by
  induction l generalizing s with
  | nil => exact ChanWork.refl s
  | cons a l ih => exact (h s a).trans (ih (f s a))

/-! ## The updates -/

/-- An update of one channel. -/
theorem ChanWork.chan (s : State) (c : ChanId) {x : Channel} (h : ChanKept (s.chan c) x) : ChanWork s (s.setChan c x) :=
  { ChanWork.refl s with
    chans := fun d => by
      by_cases e : d = c
      · subst e; simpa using h
      · rw [chan_setChan_ne s e]; exact ChanKept.refl _ }

/-- An update of one line that keeps its configuration and level and adds nothing to its count. -/
theorem ChanWork.line (s : State) (n : LineId) {x : AttnLine} (hm : x.mode = (s.line n).mode) (hr : x.route = (s.line n).route)
    (hl : x.level = (s.line n).level) (hc : x.count ≤ (s.line n).count) : ChanWork s (s.setLine n x) :=
  { ChanWork.refl s with
    lines := fun m => by
      by_cases e : m = n
      · subst e; simpa using ⟨hm, hr, hl, hc⟩
      · rw [line_setLine_ne s e]; exact ⟨rfl, rfl, rfl, Nat.le_refl _⟩ }

/-- An update of one counter that does not raise it, or not above its bound. -/
theorem ChanWork.counter (s : State) (k : CounterId) {x : SyncCounter}
    (h : x.value ≤ (s.counter k).value ∨ x.value ≤ Config.syncMax) :
    ChanWork s (s.setCounter k x) :=
  { ChanWork.refl s with
    counters := fun j => by
      by_cases e : j = k
      · subst e; simpa using h
      · rw [counter_setCounter_ne s e]; exact .inl (Nat.le_refl _) }

/-- An update of the channel's script that keeps its links and its end. -/
theorem ChanKept.script (a : Channel) (f : Script → Script) (w : WaitReason) (tm : Option Nat)
    (hl : ∀ sc, (f sc).links = sc.links) (he : ∀ sc, (f sc).ending = sc.ending)
    (hc : ∀ sc, (f sc).current.isSome = true → sc.current.isSome = true ∨ sc.ending = none) :
    ChanKept a { a with script := a.script.map f, wait := w, timer := tm } where
  rings := .inl rfl
  reserved := id
  owes := fun h => ⟨by
    obtain ⟨h1, h2⟩ := h
    refine ⟨h1, ?_⟩
    rcases h2 with h2 | h2
    · exact .inl (by simpa using h2)
    · exact .inr h2, rfl⟩
  links := fun sc' e => by
    cases hs : a.script with
    | none => simp [hs] at e
    | some sc =>
      simp only [hs, Option.map_some, Option.some.injEq] at e
      exact ⟨sc, rfl, .inl ⟨.inl (by rw [← e, hl]), by rw [← e, he], fun h => hc sc (by rw [e]; exact h)⟩⟩

/-- An update that touches neither rings, reservation, state, script nor data. -/
theorem ChanKept.outer (a b : Channel) (h1 : b.rings = a.rings) (h2 : b.reserved = a.reserved) (h3 : b.st = a.st)
    (h4 : b.script = a.script) (h5 : b.data = a.data) : ChanKept a b where
  rings := .inl h1
  reserved := by rw [h2]; exact id
  owes := fun h => ⟨by unfold Owes at *; rw [h3, h4, h5] at h; exact h, h2⟩
  links := fun sc' e => ⟨sc', by rw [← h4]; exact e, .inl ⟨.inl rfl, rfl, .inl⟩⟩

end Sys2Proof.Machine
end

