-- ==== Sys2Proof/Laws/Channels.lean ====
section
/-! SUPPORT. Each shared operation of the course of a script (Waiters.lean, Script.lean) is the work of channels: one lemma for
each says so, and no later proof opens the operation for what it leaves. -/

namespace Sys2Proof.Machine

open Sys2Proof.Safety

/-! ## Waiter lists -/

theorem markReleased_work (b : Bool) (s : State) (c : ChanId) : ChanWork s (markReleased b s c) := by
  simp only [markReleased, setProgress_eq]
  exact ChanWork.chan s c (ChanKept.script _ _ (s.chan c).wait (s.chan c).timer (fun _ => rfl) (fun _ => rfl) (fun sc h => .inl (by simpa using h)))

/-- The walk of an examination only lowers the value. -/
theorem syncWalk_value_le (v : Nat) (held : Bool) (ws : List SyncWaiter) : (syncWalk v held ws).1 ≤ v := by
  induction ws generalizing v held with
  | nil => exact Nat.le_refl v
  | cons w ws ih =>
    simp only [syncWalk]
    split
    · split
      · exact Nat.le_trans (ih _ _) (Nat.sub_le _ _)
      · exact ih _ _
    · split <;> exact ih _ _

theorem examine_work (s : State) (k : CounterId) : ChanWork s (examine s k) :=
  (ChanWork.counter s k (.inl (syncWalk_value_le _ _ _))).trans (ChanWork.foldl _ (markReleased_work false) _ _)

theorem leaveCounter_work (c : ChanId) (s : State) (k : CounterId) : ChanWork s (leaveCounter c s k) := by
  unfold leaveCounter
  split
  · exact ChanWork.refl s
  · have h : ChanWork s (s.setCounter k
        { s.counter k with waiters := (s.counter k).waiters.filter fun x => x.chan != c }) :=
      ChanWork.counter s k (.inl (Nat.le_refl _))
    split
    · exact h.trans (examine_work _ k)
    · exact h

theorem leaveSync_work (s : State) (c : ChanId) : ChanWork s (leaveSync s c) := ChanWork.foldl _ (leaveCounter_work c) _ _

theorem leaveLine_work (c : ChanId) (s : State) (n : LineId) : ChanWork s (leaveLine c s n) :=
  ChanWork.line s n rfl rfl rfl (Nat.le_refl _)

theorem leaveAttn_work (s : State) (c : ChanId) : ChanWork s (leaveAttn s c) := ChanWork.foldl _ (leaveLine_work c) _ _

theorem releaseLine_work (s : State) (n : LineId) : ChanWork s (releaseLine s n) := by
  unfold releaseLine
  dsimp only
  refine ChanWork.trans ?_ (ChanWork.foldl _ (fun t (w : AttnWaiter) => markReleased_work false t w.chan) _ _)
  exact ChanWork.line s n rfl rfl rfl (Nat.le_refl _)

theorem leaveLists_work (s : State) (c : ChanId) : ChanWork s (leaveLists s c) :=
  (leaveSync_work s c).trans (leaveAttn_work _ c)

/-! ## Admin answers -/

theorem adminDone_work (s : State) (on : AdminWait) (st : AdminStatus) (d : Detail) (h : on ≠ .region) :
    ChanWork s (adminDone s on st d) := by
  unfold adminDone
  split
  · rename_i id on' e
    split
    · rename_i e'
      subst e'
      unfold adminAnswer
      split
      · exact { ChanWork.refl s with progress := .inr ⟨id, _, e, h⟩ }
      · exact { ChanWork.refl s with progress := .inr ⟨id, _, e, h⟩ }
    · exact ChanWork.refl s
  · exact ChanWork.refl s

/-! ## The lock and the presented set -/

theorem clearLock_work (s : State) : ChanWork s (clearLock s) :=
  { ChanWork.refl s with lock := .inr rfl, own := ⟨s.own.state, none, rfl, .inl rfl⟩ }

theorem releaseLock_work (s : State) (c : ChanId) : ChanWork s (releaseLock s c) := by
  unfold releaseLock; split
  · exact clearLock_work s
  · exact ChanWork.refl s

theorem releaseStepLock_work (s : State) (c : ChanId) : ChanWork s (releaseStepLock s c) := by
  unfold releaseStepLock; split
  · exact clearLock_work s
  · exact ChanWork.refl s

theorem setPresented_work (s : State) (c : ChanId) (x : Option Request) : ChanWork s (s.setPresented c x) :=
  { ChanWork.refl s with }

theorem withdraw_work (s : State) (c : ChanId) : ChanWork s (withdraw s c) := setPresented_work s c none

theorem askBus_work (s : State) : ChanWork s (askBus s) := by
  unfold askBus; split
  · rename_i h
    exact { ChanWork.refl s with own := ⟨.requesting, s.own.lockTimer, rfl, .inr ⟨h.1, h.2.1, rfl⟩⟩ }
  · exact ChanWork.refl s

theorem setWait_work (s : State) (c : ChanId) (w : WaitReason) : ChanWork s (s.setWait c w) :=
  ChanWork.chan s c (ChanKept.outer _ _ rfl rfl rfl rfl rfl)

/-- The end of a wait in a bridge reset changes the channel's wait reason alone. -/
theorem waitOver_work (s : State) (c : ChanId) : ChanWork s (waitOver s c) := setWait_work ..

@[simp] theorem waitsOver_chan (s : State) (c : ChanId) : (waitsOver s).chan c = { s.chan c with wait := resetWait s c } := by
  simp [waitsOver, State.chan]

theorem waitsOver_work (s : State) : ChanWork s (waitsOver s) :=
  { ChanWork.refl s with
    chans := fun c => by
      rw [waitsOver_chan]
      exact ChanKept.outer _ _ rfl rfl rfl rfl rfl }

theorem setProgress_work (s : State) (c : ChanId) (p : Progress) : ChanWork s (s.setProgress c p) := by
  simp only [setProgress_eq]
  exact ChanWork.chan s c (ChanKept.script _ _ (s.chan c).wait (s.chan c).timer (fun _ => rfl) (fun _ => rfl) (fun sc h => .inl (by simpa using h)))

theorem warn_work (s : State) (c : ChanId) (f : Warnings → Warnings) : ChanWork s (s.warn c f) := by
  simp only [warn_eq]
  exact ChanWork.chan s c (ChanKept.script _ _ (s.chan c).wait (s.chan c).timer (fun _ => rfl) (fun _ => rfl) (fun sc h => .inl (by simpa using h)))

theorem joinSet_work (s : State) (c : ChanId) (r : Request) : ChanWork s (joinSet s c r) :=
  ((setPresented_work s c (some r)).trans (setWait_work _ c .bus)).trans (askBus_work _)

/-! ## The end of a script -/

theorem startCompletion_work (s : State) (c : ChanId) : ChanWork s (startCompletion s c) := by
  unfold startCompletion
  dsimp only
  split
  · rename_i sc r hs hr hd
    split
    · refine ChanWork.chan s c ⟨.inl rfl, id, fun h => ⟨⟨h.1, .inl ?_⟩, rfl⟩, fun sc' e => ⟨sc', e, .inl ⟨.inl rfl, rfl, .inl⟩⟩⟩
      rw [hs]; rfl
    · exact ChanWork.refl s
  · exact ChanWork.refl s

theorem discardFetch_work (s : State) (c : ChanId) (tm : Option Nat) :
    ChanWork s (s.modChan c fun ch => { discardFetch ch with timer := tm }) :=
  ChanWork.chan s c (ChanKept.outer _ _ rfl rfl rfl rfl rfl)

/-- The part of a script's end that follows the withdrawals. -/
theorem closeScript_work (s : State) (c : ChanId) (e : Ending) :
    ChanWork s ((s.modChan c fun ch => { discardFetch ch with timer := none }).modScript c fun sc =>
      { sc with current := none, window := [], links := [], ending := some e }) := by
  refine ChanWork.trans (discardFetch_work s c none) (ChanWork.chan _ c ⟨.inl rfl, id, fun h => ⟨⟨h.1, ?_⟩, rfl⟩, ?_⟩)
  · rcases h.2 with h | h
    · exact .inl (by simpa using h)
    · exact .inr h
  · intro sc' e
    simp only [Option.map_eq_some_iff] at e
    obtain ⟨sc, e, rfl⟩ := e
    exact ⟨sc, e, .inr ⟨rfl, rfl, rfl⟩⟩

theorem endScript_work (s : State) (c : ChanId) (st : Status) (o : Nat) (d : Detail) : ChanWork s (endScript s c st o d) := by
  have h : ChanWork s (leaveLists (withdraw (releaseLock s c) c) c) :=
    ((releaseLock_work s c).trans (withdraw_work _ c)).trans (leaveLists_work _ c)
  unfold endScript
  generalize leaveLists (withdraw (releaseLock s c) c) c = u at h
  exact (h.trans (closeScript_work u c _)).trans (startCompletion_work _ c)

theorem failStep_work (s : State) (c : ChanId) (st : Status) (d : Detail) : ChanWork s (failStep s c st d) :=
  endScript_work s c st _ d

theorem endOk_work (s : State) (c : ChanId) : ChanWork s (endOk s c) := by
  unfold endOk; split
  · exact endScript_work ..
  · exact ChanWork.refl s

theorem failAccess_work (s : State) (c : ChanId) (st : Status) : ChanWork s (failAccess s c st) := by
  unfold failAccess; split
  · exact failStep_work ..
  · exact ChanWork.refl s

/-! ## Starting steps and fetches, and stops -/

theorem startFetch_work (s : State) (c : ChanId) : ChanWork s (startFetch s c) := by
  unfold startFetch; split
  · split
    · exact ChanWork.chan s c (ChanKept.outer _ _ rfl rfl rfl rfl rfl)
    · exact ChanWork.refl s
  · exact ChanWork.refl s

theorem scriptStep_work (s : State) (c : ChanId) (f : Script → Script) (hl : ∀ sc, (f sc).links = sc.links)
    (he : ∀ sc, (f sc).ending = sc.ending)
    (hc : ∀ sc, (f sc).current.isSome = true → sc.current.isSome = true ∨ sc.ending = none) : ChanWork s (s.modScript c f) :=
  ChanWork.chan s c (ChanKept.script _ f (s.chan c).wait (s.chan c).timer hl he hc)

theorem beginStep_work (s : State) (c : ChanId) (st : Step) (h : ∀ sc, (s.chan c).script = some sc → sc.ending = none) :
    ChanWork s ((s.modScript c fun sc => { sc with current := some st }).setWait c .none) := by
  refine ChanWork.trans ?_ (setWait_work ..)
  refine ChanWork.chan s c ⟨.inl rfl, id, fun o => ⟨⟨o.1, ?_⟩, rfl⟩, fun sc' e => ?_⟩
  · rcases o.2 with o | o
    · exact .inl (by simpa using o)
    · exact .inr o
  · simp only [Option.map_eq_some_iff] at e
    obtain ⟨sc, e, rfl⟩ := e
    exact ⟨sc, e, .inl ⟨.inl rfl, rfl, fun _ => .inr (h sc e)⟩⟩

theorem startNext_work (s : State) (c : ChanId) : ChanWork s (startNext s c) := by
  unfold startNext
  split
  · exact ChanWork.refl s
  · rename_i sc hs
    split
    · exact ChanWork.refl s
    · rename_i hn
      split
      · exact setWait_work ..
      · rename_i e rest hw
        split
        · exact endScript_work ..
        · have h : ChanWork s
              (s.modScript c fun sc => { sc with ordinals := counterInc sc.ordinals, window := rest }) :=
            scriptStep_work s c _ (fun _ => rfl) (fun _ => rfl) (fun _ => .inl)
          have k : ∀ x, ((s.modScript c fun sc =>
              { sc with ordinals := counterInc sc.ordinals, window := rest }).chan c).script = some x →
              x.ending = none := by
            intro x hx
            simp only [modScript_eq, chan_setChan_self, hs, Option.map_some, Option.some.injEq] at hx
            rw [← hx]
            cases he : sc.ending with
            | none => rfl
            | some y => simp [he] at hn
          dsimp only
          generalize (s.modScript c fun sc => { sc with ordinals := counterInc sc.ordinals, window := rest }) = t at h k
          split
          · exact h.trans (failStep_work ..)
          · split
            · exact h.trans (failStep_work ..)
            · exact h.trans (beginStep_work t c _ k)

theorem pauseCheck_work (s : State) (c : ChanId) : ChanWork s (pauseCheck s c) := by
  unfold pauseCheck
  split
  · rename_i hst
    split
    · refine (ChanWork.chan s c ?_).trans (adminDone_work _ (.pause c) .ok 0 (by simp))
      refine ⟨.inl rfl, id, fun h => ⟨⟨by rw [hst]; simp, h.2⟩, rfl⟩, fun sc' e => ⟨sc', e, .inl ⟨.inl rfl, rfl, .inl⟩⟩⟩
    · exact setWait_work ..
  · exact ChanWork.refl s

theorem abortCheck_work (s : State) (c : ChanId) : ChanWork s (abortCheck s c) := by
  unfold abortCheck
  split
  · split
    · exact endScript_work ..
    · exact setWait_work ..
  · exact setWait_work ..
  · exact ChanWork.refl s

theorem not_owes_reset : ¬ Owes Channel.reset := by simp [Owes, Channel.reset]

theorem releaseChan_work (s : State) (c : ChanId) : ChanWork s (releaseChan s c) :=
  ChanWork.chan s c ⟨.inr rfl, by simp [Channel.reset], fun h => absurd h not_owes_reset, by simp [Channel.reset]⟩

theorem releaseCheck_work (s : State) (c : ChanId) : ChanWork s (releaseCheck s c) := by
  unfold releaseCheck
  split
  · exact (releaseChan_work s c).trans (adminDone_work _ _ _ _ (by simp))
  · exact ChanWork.refl s

theorem goOn_work (s : State) (c : ChanId) : ChanWork s (goOn s c) := by
  unfold goOn
  split
  · exact (startNext_work s c).trans (startFetch_work _ c)
  · exact pauseCheck_work ..
  · exact abortCheck_work ..
  · exact releaseCheck_work ..
  · exact releaseCheck_work ..
  all_goals exact ChanWork.refl s

theorem closeStep_work (s : State) (c : ChanId) : ChanWork s (closeStep s c) := by
  unfold closeStep
  refine ChanWork.trans (releaseStepLock_work s c) ?_
  exact ChanWork.chan _ c (ChanKept.script _ _ .none none (fun _ => rfl) (fun _ => rfl) (fun _ h => by simp at h))

theorem completeStep_work (s : State) (c : ChanId) : ChanWork s (completeStep s c) :=
  (closeStep_work s c).trans (goOn_work _ c)

theorem finishRelease_work (s : State) (c : ChanId) : ChanWork s (finishRelease s c) := by
  unfold finishRelease
  split
  · split
    · split
      · exact (warn_work ..).trans (completeStep_work ..)
      · exact completeStep_work ..
    · exact ChanWork.refl s
  · exact ChanWork.refl s

/-- A channel whose step was not released goes on as it stands. -/
theorem finishRelease_self {s : State} {c : ChanId} (h : ∀ st b, s.step? c = some st → st.progress ≠ .released b) :
    finishRelease s c = s := by
  unfold finishRelease
  split
  · rename_i st hs
    split
    · rename_i b hp; exact absurd hp (h st b hs)
    · rfl
  · rfl

/-- Where no step was released, none completes. -/
theorem finishReleases_self {s : State} (h : Quiescent s) : finishReleases s = s := by
  have one (c : ChanId) : finishRelease s c = s := finishRelease_self (h c)
  simp only [finishReleases, allChans, List.foldl_cons, List.foldl_nil, one]

theorem finishReleases_work (s : State) : ChanWork s (finishReleases s) := ChanWork.foldl _ finishRelease_work _ _

/-! ## The next action of a step -/

theorem present_work (s : State) (c : ChanId) (st : Step) (p : Purpose) (a : BusAddr) (v : Option Value) :
    ChanWork s (present s c st p a v) := by
  unfold present; split
  · exact failAccess_work ..
  · exact joinSet_work ..

/-- The transfer of a step, which owes no completion. -/
def Data.ofStep : Data → Prop
  | .readWrite _ => True
  | .slotWrite _ => True
  | .slotRead _ => True
  | _ => False

theorem startData_work (s : State) (c : ChanId) (d : Data) (h : d.ofStep) : ChanWork s (startData s c d) := by
  refine ChanWork.chan s c ⟨.inl rfl, id, fun o => ⟨⟨o.1, ?_⟩, rfl⟩, fun sc' e => ⟨sc', e, .inl ⟨.inl rfl, rfl, .inl⟩⟩⟩
  rcases o.2 with o | ⟨a, o⟩ | ⟨a, o⟩
  · exact .inl o
  · cases d <;> simp_all [Data.ofStep]
  · cases d <;> simp_all [Data.ofStep]

theorem joinSync_work (s : State) (c : ChanId) (st : Step) : ChanWork s (joinSync s c st) := by
  unfold joinSync
  dsimp only
  refine ChanWork.trans (ChanWork.trans ?_ (setProgress_work ..)) (setWait_work ..)
  exact ChanWork.counter s _ (.inl (Nat.le_refl _))

theorem startAwait_work (s : State) (c : ChanId) (st : Step) : ChanWork s (startAwait s c st) := by
  unfold startAwait
  dsimp only
  split
  · split
    · exact (ChanWork.counter s _ (.inl (Nat.sub_le _ _))).trans (completeStep_work ..)
    · exact completeStep_work ..
  · exact joinSync_work ..

theorem joinAttn_work (s : State) (c : ChanId) (st : Step) : ChanWork s (joinAttn s c st) := by
  unfold joinAttn
  dsimp only
  refine ChanWork.trans (ChanWork.trans ?_ (setProgress_work ..)) (setWait_work ..)
  exact ChanWork.line s _ rfl rfl rfl (Nat.le_refl _)

theorem consumePending_work (s : State) (c : ChanId) (n : LineId) : ChanWork s (consumePending s c n) := by
  have h : ChanWork s (s.setLine n { s.line n with count := (s.line n).count - 1, saturated := false }) :=
    ChanWork.line s n rfl rfl rfl (Nat.sub_le _ _)
  unfold consumePending
  dsimp only
  split
  · exact h.trans (warn_work ..)
  · exact h

theorem startAttend_work (s : State) (c : ChanId) (st : Step) : ChanWork s (startAttend s c st) := by
  unfold startAttend
  dsimp only
  split
  · exact failStep_work ..
  · split
    · split
      · exact (consumePending_work ..).trans (completeStep_work ..)
      · exact joinAttn_work ..
    · split
      · exact completeStep_work ..
      · exact joinAttn_work ..

theorem startDelay_work (s : State) (c : ChanId) (st : Step) : ChanWork s (startDelay s c st) := by
  unfold startDelay
  exact (setProgress_work s c .waiting).trans (ChanWork.chan _ c (ChanKept.outer _ _ rfl rfl rfl rfl rfl))

theorem act_work (s : State) (c : ChanId) : ChanWork s (act s c) := by
  unfold act
  split
  · exact ChanWork.refl s
  · dsimp only
    split
    · exact ChanWork.refl s
    · exact ChanWork.refl s
    · exact present_work ..
    · split
      · exact present_work ..
      · exact failAccess_work ..
      · exact (setProgress_work ..).trans (startData_work _ _ _ trivial)
    · exact startData_work _ _ _ trivial
    · split
      · exact present_work ..
      · exact failAccess_work ..
      · exact (setProgress_work ..).trans (present_work ..)
    · exact present_work ..
    · exact present_work ..
    · split
      · exact present_work ..
      · exact failStep_work ..
    · exact startData_work _ _ _ trivial
    · split
      · exact startData_work _ _ _ trivial
      · exact failStep_work ..
    · exact present_work ..
    · split
      · exact startDelay_work ..
      · exact startAwait_work ..
      · exact startAttend_work ..
      · exact ChanWork.refl s

theorem continueStep_work (s : State) (c : ChanId) : ChanWork s (continueStep s c) := by
  unfold continueStep; split
  · exact act_work ..
  · exact goOn_work ..

/-! ## The steps carried out within a delivery -/

theorem firstAct_work (c : ChanId) (p : Step → Progress) (s : State) (st : Step) : ChanWork s (firstAct c p s st) :=
  (setProgress_work ..).trans (act_work ..)

theorem turnTo_work (s : State) (c : ChanId) (links : List HostAddr) (pos : HostAddr)
    (h : ∀ sc, (s.chan c).script = some sc → links.length ≤ sc.links.length ∨ links.length ≤ Config.linkDepth)
    (he : ∀ sc, (s.chan c).script = some sc → sc.ending = none) : ChanWork s (turnTo s c links pos) := by
  unfold turnTo
  refine ChanWork.trans (t := s.modChan c discardFetch)
    (ChanWork.chan s c (ChanKept.outer _ _ rfl rfl rfl rfl rfl)) (ChanWork.chan _ c ⟨.inl rfl, id, fun o => ⟨⟨o.1, ?_⟩, rfl⟩, ?_⟩)
  · rcases o.2 with o | o
    · exact .inl (by simpa using o)
    · exact .inr o
  · intro sc' e
    simp only [Option.map_eq_some_iff] at e
    obtain ⟨sc, e, rfl⟩ := e
    have hs : (s.chan c).script = some sc := by simpa [modChan_eq, discardFetch] using e
    exact ⟨sc, e, .inl ⟨.inr ⟨he sc hs, h sc hs⟩, rfl, fun _ => .inr (he sc hs)⟩⟩

theorem runCall_work (c : ChanId) (s : State) (st : Step) (he : ∀ sc, (s.chan c).script = some sc → sc.ending = none) :
    ChanWork s (runCall c s st) := by
  unfold runCall
  split
  · split
    · rename_i h
      exact (turnTo_work s c _ _ (fun _ _ => .inr (by simpa using h)) he).trans (completeStep_work ..)
    · exact failStep_work ..
  · exact ChanWork.refl s

theorem runEnd_work (c : ChanId) (s : State) (st : Step) (he : ∀ sc, (s.chan c).script = some sc → sc.ending = none) :
    ChanWork s (runEnd c s st) := by
  unfold runEnd
  split
  · rename_i sc hs
    split
    · exact (closeStep_work s c).trans (endOk_work _ c)
    · rename_i pos rest hl
      refine (turnTo_work s c rest pos (fun sc' e => ?_) he).trans (completeStep_work ..)
      rw [hs] at e; cases e
      exact .inl (by rw [hl]; exact Nat.le_succ _)
  · exact ChanWork.refl s

theorem runSignal_work (c : ChanId) (s : State) (st : Step) : ChanWork s (runSignal c s st) := by
  unfold runSignal
  dsimp only
  split
  · rename_i h
    exact ((ChanWork.counter s _ (.inr h)).trans (completeStep_work ..)).trans (examine_work ..)
  · exact failStep_work ..

theorem runStep_work (c : ChanId) (k : StepKind) (s : State) (st : Step)
    (he : ∀ sc, (s.chan c).script = some sc → sc.ending = none) : ChanWork s (runStep c k s st) := by
  cases k
  case call => exact runCall_work c s st he
  case endStep => exact runEnd_work c s st he
  case delay => exact startDelay_work ..
  case signal => exact runSignal_work ..
  case await => exact startAwait_work ..
  case attend => exact startAttend_work ..
  all_goals exact (setProgress_work s c _).trans (act_work _ c)

theorem takeStep_work (s : State) (c : ChanId) (he : ∀ sc, (s.chan c).script = some sc → sc.ending = none) :
    ChanWork s (takeStep s c) := by
  unfold takeStep
  split
  · split
    · unfold checked
      split
      · exact runStep_work _ _ _ _ he
      · exact failStep_work ..
    · exact ChanWork.refl s
  · exact ChanWork.refl s

theorem startedStep_running {ch : Channel} (h : startedStep ch = true) : ∀ sc, ch.script = some sc → sc.ending = none := by
  intro sc hs
  simp only [startedStep, hs, Bool.and_eq_true, Option.isNone_iff_eq_none] at h
  exact h.2.1

theorem carryRounds_work (n : Nat) (s : State) (c : ChanId) : ChanWork s (carryRounds n s c) := by
  induction n generalizing s with
  | zero => exact ChanWork.refl s
  | succ n ih =>
    unfold carryRounds
    split
    · rename_i h
      exact (takeStep_work s c (startedStep_running h)).trans (ih _)
    · exact ChanWork.refl s

/-- The steps carried out within a delivery are the work of channels. -/
theorem carrySteps_work (s : State) (c : ChanId) : ChanWork s (carrySteps s c) := carryRounds_work _ s c

/-- With no started step to carry out, nothing is done. -/
theorem carrySteps_self {s : State} {c : ChanId} (h : startedStep (s.chan c) = false) : carrySteps s c = s := by
  unfold carrySteps carryRounds
  rw [h]; rfl

end Sys2Proof.Machine
end

