-- ==== Sys2Proof/Laws/Admin.lean ====
section
/-! SUPPORT. The Admin Processor's shared operations (Admin.lean, Ops.lean): what taking a command answers in each case, and what
an answer, an ask for a vector and a raise of an event leave. -/

namespace Sys2Proof.Machine

open Sys2Proof.Safety

/-! ## Taking a command (R178, R179) -/

/-- A command that passes the common checks acts on the state with the head advanced. -/
theorem takeCommand_taken {s : State} {rec : Record32} {k : AdminCode} (act : State → BitVec 16 → State)
    (h : Taken s rec k) : takeCommand s rec k act = act (headPast s) (AdminRecord.id rec) := by
  obtain ⟨⟨a, h1⟩, h2, h3⟩ := h
  unfold takeCommand
  rw [h1]
  dsimp only
  rw [if_pos h2, if_pos h3]
  rfl

/-- A command that fails them is answered INVALID_FIELD. -/
theorem takeCommand_refused {s : State} {rec : Record32} {k : AdminCode} (act : State → BitVec 16 → State) {a : HostAddr}
    (h1 : s.admin.progress = .reading a) (h2 : s.ready = true) (h3 : AdminRecord.commonOk rec k = false) :
    takeCommand s rec k act = answered s rec .invalidField 0 := by
  unfold takeCommand
  rw [h1]
  dsimp only
  rw [if_pos h2, if_neg (by rw [h3]; simp)]
  rfl

/-- With no command read in flight nothing happens. -/
theorem takeCommand_idle {s : State} {rec : Record32} {k : AdminCode} (act : State → BitVec 16 → State)
    (h : ∀ a, s.admin.progress ≠ .reading a) : takeCommand s rec k act = s := by
  unfold takeCommand
  split
  · exact absurd ‹_› (h _)
  · rfl

/-- A byte that names a channel, a line or an index (R17). -/
theorem indexOf_val {n v : Nat} {c : Fin n} (h : v = c.val) : indexOf n v = some c := by subst h; simp [indexOf]

theorem indexOf_none {n v : Nat} (h : n ≤ v) : indexOf n v = none := by simp [indexOf]; omega

/-- A command accepted in the channel's state, its parameters in range, runs on the channel (R17). -/
theorem channelCommand_runs {s : State} {rec : Record32} {k : AdminCode} {c : ChanId} {st : ChanState}
    {allowed : ChanState → Bool} {inRange : Bool} {run : ChanId → State → BitVec 16 → State} (h : Taken s rec k)
    (hn : Names s rec c st) (ha : allowed st = true) (hi : inRange = true) :
    channelCommand rec k allowed inRange run s = run c (headPast s) (AdminRecord.id rec) := by
  unfold channelCommand
  rw [takeCommand_taken _ h, indexOf_val hn.1]
  have e : ((headPast s).chan c).st = st := hn.2
  simp [e, ha, hi]

@[simp] theorem headPast_chan (s : State) (c : ChanId) : (headPast s).chan c = s.chan c := rfl
@[simp] theorem headPast_line (s : State) (n : LineId) : (headPast s).line n = s.line n := rfl
@[simp] theorem headPast_counter (s : State) (k : CounterId) : (headPast s).counter k = s.counter k := rfl
@[simp] theorem headPast_region (s : State) (i : RegionId) : (headPast s).region i = s.region i := rfl
@[simp] theorem headPast_regions (s : State) : (headPast s).regions = s.regions := rfl
@[simp] theorem headPast_shadow (s : State) : (headPast s).shadow = s.shadow := rfl
@[simp] theorem headPast_own (s : State) : (headPast s).own = s.own := rfl
@[simp] theorem headPast_arb (s : State) : (headPast s).arb = s.arb := rfl
@[simp] theorem headPast_events (s : State) : (headPast s).events = s.events := rfl
@[simp] theorem headPast_setChan (s : State) (c : ChanId) (x : Channel) :
    (headPast s).setChan c x = headPast (s.setChan c x) := rfl

/-! ## Answers (R181) -/

/-- An answer gives the progress anew, whatever it was. -/
@[simp] theorem adminAnswer_setProgressA (s : State) (p : AdminProgress) (id : BitVec 16) (st : AdminStatus) (d : Detail) :
    adminAnswer (s.setProgressA p) id st d = adminAnswer s id st d := by
  unfold adminAnswer; split <;> simp_all <;> rfl

/-- The whole effect of an answer is on the command in progress. -/
theorem adminAnswer_eq (s : State) (id : BitVec 16) (st : AdminStatus) (d : Detail) :
    ∃ p, adminAnswer s id st d = s.setProgressA p ∧ ∀ a id' on, p ≠ .reading a ∧ p ≠ .waiting id' on := by
  unfold adminAnswer; split
  · exact ⟨_, rfl, fun _ _ _ => ⟨by simp, by simp⟩⟩
  · exact ⟨_, rfl, fun _ _ _ => ⟨by simp, by simp⟩⟩

/-- The command that waits on this is answered; no other is. -/
theorem adminDone_waiting {s : State} {on : AdminWait} {id : BitVec 16} (st : AdminStatus) (d : Detail)
    (h : s.admin.progress = .waiting id on) : adminDone s on st d = adminAnswer s id st d := by
  unfold adminDone; rw [h]; simp

theorem adminDone_other {s : State} {on : AdminWait} (st : AdminStatus) (d : Detail)
    (h : ∀ id, s.admin.progress ≠ .waiting id on) : adminDone s on st d = s := by
  unfold adminDone
  split
  · rename_i id on' e
    rw [if_neg]
    rintro rfl
    exact h id e
  · rfl

/-! ## Interrupts and events -/

/-- An ask sets the pending bit of a masked vector, and sends the message of an unmasked one (R198). -/
theorem askVector_eq (s : State) (v : VectorId) : askVector s v = s.setVector v
    (if (s.vector v).masked then { s.vector v with waiting := true }
     else { s.vector v with waiting := false, messages := (s.vector v).messages + 1 }) := by
  unfold askVector
  dsimp only
  split <;> rfl

/-- An event write starts for the oldest held record, or nothing happens (R190). -/
theorem startEventWrite_cases (s : State) :
    startEventWrite s = s ∨ ∃ r rest, s.events.holding = r :: rest ∧ s.events.write = none ∧
      startEventWrite s = { s with events := { s.events with
        holding := rest,
        write := some { record := r, stale := false, write :=
          { addr := hostAdd s.events.base (16 * s.events.tail), bytes := eventBytes r s.events.phase } } } } := by
  unfold startEventWrite
  dsimp only
  split
  · rename_i h
    split
    · exact .inl rfl
    · rename_i r rest e
      refine .inr ⟨r, rest, e, ?_, rfl⟩
      simp at h
      exact h.1.2
  · exact .inl rfl

/-- A raise changes the Event Unit alone (R189). -/
theorem raiseEvent_frame (s : State) (k : EventKind) (src : Nat) (d : Detail) :
    ∃ e, raiseEvent s k src d = { s with events := e } := by
  unfold raiseEvent
  rcases startEventWrite_cases
    { s with events := { s.events with holding := holdingRaise s.events.holding k src d s.timebase } } with h | ⟨_, _, _, _, h⟩
  · exact ⟨_, h⟩
  · exact ⟨_, h⟩

end Sys2Proof.Machine
end

