-- ==== Sys2Proof/Laws/Carried.lean ====
section
/-! SUPPORT. The steps carried out within a delivery come to an end: each step behind the first takes an entry of the window,
so the rounds of `carrySteps` reach the state in which none stands started. -/

namespace Sys2Proof.Machine

/-! ## A started step and the window behind it -/

/-- A step that stands started on the channel has fewer than so many entries of the window behind it. -/
structure Behind (n : Nat) (ch : Channel) : Prop where
  window : startedStep ch = true → ∃ sc, ch.script = some sc ∧ sc.window.length < n

/-- A script whose end is fixed has no step started. -/
theorem behind_ending {n : Nat} {ch : Channel} (h : ∀ sc, ch.script = some sc → sc.ending.isSome = true) : Behind n ch := by
  refine ⟨fun hs => ?_⟩
  cases e : ch.script with
  | none => simp [startedStep, e] at hs
  | some sc =>
    have := h sc e
    cases he : sc.ending <;> simp [startedStep, e, he] at hs this

/-- A step past its start is not started again. -/
theorem behind_progress {n : Nat} {ch : Channel}
    (h : ∀ sc st, ch.script = some sc → sc.current = some st → st.progress ≠ .fresh) : Behind n ch := by
  refine ⟨fun hs => ?_⟩
  cases e : ch.script with
  | none => simp [startedStep, e] at hs
  | some sc =>
    cases he : sc.current with
    | none => simp [startedStep, e, he] at hs
    | some st => simp [startedStep, e, he, h sc st e he] at hs

theorem same_behind {n : Nat} {a b : Channel} (hs : b.script = a.script) (ht : b.st = a.st) (h : Behind n a) : Behind n b := by
  have e : startedStep b = startedStep a := by simp only [startedStep, hs, ht]
  exact ⟨fun x => hs ▸ h.window (e ▸ x)⟩

theorem startCompletion_script (s : State) (c : ChanId) : ((startCompletion s c).chan c).script = (s.chan c).script := by
  unfold startCompletion
  dsimp only
  repeat' split
  all_goals simp

/-- The end of a script leaves no step started. -/
theorem endScript_behind (n : Nat) (s : State) (c : ChanId) (st : Status) (o : Nat) (d : Detail) :
    Behind n ((endScript s c st o d).chan c) := by
  unfold endScript
  dsimp only
  generalize leaveLists (withdraw (releaseLock s c) c) c = u
  apply behind_ending
  intro sc h
  rw [startCompletion_script] at h
  simp at h
  obtain ⟨x, _, rfl⟩ := h
  rfl

theorem failStep_behind (n : Nat) (s : State) (c : ChanId) (st : Status) (d : Detail) :
    Behind n ((failStep s c st d).chan c) := endScript_behind ..

theorem startFetch_behind {n : Nat} {s : State} {c : ChanId} (h : Behind n (s.chan c)) : Behind n ((startFetch s c).chan c) := by
  unfold startFetch
  split
  · split
    · exact same_behind (by simp) (by simp) h
    · exact h
  · exact h

/-- No step of the channel is current. -/
def NoStep (ch : Channel) : Prop := ∀ sc, ch.script = some sc → sc.current = none

theorem NoStep.behind {n : Nat} {ch : Channel} (h : NoStep ch) : Behind n ch :=
  behind_progress fun sc st e he => by rw [h sc e] at he; cases he

/-- A step that starts takes an entry of the window. -/
theorem startNext_behind {s : State} {c : ChanId} (h : NoStep (s.chan c)) :
    Behind (windowSize s c) ((startNext s c).chan c) := by
  unfold startNext
  split
  · exact h.behind
  · rename_i sc hs
    split
    · exact h.behind
    · split
      · exact NoStep.behind (by simpa [NoStep] using h)
      · rename_i e rest hw
        split
        · exact endScript_behind ..
        · dsimp only
          split
          · exact failStep_behind ..
          · split
            · exact failStep_behind ..
            · refine ⟨fun _ =>
                ⟨{ sc with ordinals := counterInc sc.ordinals, window := rest, current := some _ }, by simp [hs]; rfl, ?_⟩⟩
              simp [windowSize, hs, hw]

theorem adminDone_chan (s : State) (w : AdminWait) (st : AdminStatus) (d : Detail) (c : ChanId) :
    (adminDone s w st d).chan c = s.chan c := by
  unfold adminDone adminAnswer; repeat' split
  all_goals rfl

theorem goOn_behind {s : State} {c : ChanId} (h : NoStep (s.chan c)) : Behind (windowSize s c) ((goOn s c).chan c) := by
  unfold goOn
  split
  · exact startFetch_behind (startNext_behind h)
  · rename_i e
    simp only [pauseCheck, e, if_true]
    · split
      · rw [adminDone_chan]; exact NoStep.behind (by simpa [NoStep] using h)
      · exact NoStep.behind (by simpa [NoStep] using h)
  · unfold abortCheck
    split
    · split
      · exact endScript_behind ..
      · exact NoStep.behind (by simpa [NoStep] using h)
    · exact NoStep.behind (by simpa [NoStep] using h)
    · exact h.behind
  · unfold releaseCheck releaseChan
    split
    · rw [adminDone_chan]; exact NoStep.behind (by simp [NoStep, Channel.reset])
    · exact h.behind
  · unfold releaseCheck releaseChan
    split
    · rw [adminDone_chan]; exact NoStep.behind (by simp [NoStep, Channel.reset])
    · exact h.behind
  all_goals exact h.behind

theorem releaseStepLock_chan (s : State) (c d : ChanId) : (releaseStepLock s c).chan d = s.chan d := by
  unfold releaseStepLock; split <;> rfl

/-- A step that completes starts at most the next of the window. -/
theorem completeStep_behind (s : State) (c : ChanId) : Behind (windowSize s c) ((completeStep s c).chan c) := by
  have h : NoStep ((closeStep s c).chan c) := by
    intro sc e
    simp [closeStep] at e
    obtain ⟨x, _, rfl⟩ := e; rfl
  have e : windowSize (closeStep s c) c = windowSize s c := by
    simp only [windowSize, closeStep, modChan_eq, chan_setChan_self, releaseStepLock_chan]
    cases (s.chan c).script <;> rfl
  rw [← e]
  exact goOn_behind h

theorem progress_behind (n : Nat) (s : State) (c : ChanId) (p : Progress) (h : p ≠ .fresh) :
    Behind n ((s.setProgress c p).chan c) := by
  apply behind_progress
  intro sc st e he
  simp only [setProgress_eq, chan_setChan_self, Option.map_eq_some_iff] at e
  obtain ⟨x, _, rfl⟩ := e
  simp only [Option.map_eq_some_iff] at he
  obtain ⟨y, _, rfl⟩ := he
  exact h

theorem failAccess_behind {n : Nat} {s : State} {c : ChanId} (st : Status) (h : Behind n (s.chan c)) :
    Behind n ((failAccess s c st).chan c) := by
  unfold failAccess; split
  · exact failStep_behind ..
  · exact h

theorem present_behind {n : Nat} {s : State} {c : ChanId} (st : Step) (p : Purpose) (a : BusAddr) (v : Option Value)
    (h : Behind n (s.chan c)) : Behind n ((present s c st p a v).chan c) := by
  unfold present; split
  · exact failAccess_behind _ h
  · have e (t : State) : (askBus t).chan c = t.chan c := by unfold askBus; split <;> rfl
    exact same_behind (by simp [joinSet, e]) (by simp [joinSet, e]) h

theorem startData_behind {n : Nat} {s : State} {c : ChanId} (d : Data) (h : Behind n (s.chan c)) :
    Behind n ((startData s c d).chan c) := same_behind (by simp [startData]) (by simp [startData]) h

theorem step?_progress {s : State} {c : ChanId} {st : Step} (h : s.step? c = some st) (hp : st.progress ≠ .fresh) (n : Nat) :
    Behind n (s.chan c) := by
  apply behind_progress
  intro sc x e he
  simp [e, he] at h
  exact h ▸ hp

/-! ## The step kinds -/

theorem joinSync_behind (n : Nat) (s : State) (c : ChanId) (st : Step) : Behind n ((joinSync s c st).chan c) := by
  unfold joinSync
  dsimp only
  exact same_behind (by simp) (by simp) (progress_behind n s c .waiting (by simp))

theorem joinAttn_behind (n : Nat) (s : State) (c : ChanId) (st : Step) : Behind n ((joinAttn s c st).chan c) := by
  unfold joinAttn
  dsimp only
  exact same_behind (by simp) (by simp) (progress_behind n s c .waiting (by simp))

theorem startDelay_behind (n : Nat) (s : State) (c : ChanId) (st : Step) : Behind n ((startDelay s c st).chan c) := by
  unfold startDelay
  exact same_behind (by simp) (by simp) (progress_behind n s c .waiting (by simp))

theorem windowSize_of {s t : State} {c : ChanId} (h : (t.chan c).script.map (·.window) = (s.chan c).script.map (·.window)) :
    windowSize t c = windowSize s c := by
  unfold windowSize
  cases e : (s.chan c).script <;> cases e' : (t.chan c).script <;> simp_all

theorem startAwait_behind (s : State) (c : ChanId) (st : Step) : Behind (windowSize s c) ((startAwait s c st).chan c) := by
  unfold startAwait
  dsimp only
  split
  · split
    · exact completeStep_behind (s.setCounter _ _) c
    · exact completeStep_behind s c
  · exact joinSync_behind ..

theorem startAttend_behind (s : State) (c : ChanId) (st : Step) : Behind (windowSize s c) ((startAttend s c st).chan c) := by
  unfold startAttend
  dsimp only
  split
  · exact failStep_behind ..
  · split
    · split
      · have e : windowSize (consumePending s c (StepRecord.index st.bits)) c = windowSize s c := by
          apply windowSize_of
          unfold consumePending
          dsimp only
          split
          · simp [Option.map_map]; rfl
          · rfl
        rw [← e]; exact completeStep_behind ..
      · exact joinAttn_behind ..
    · split
      · exact completeStep_behind ..
      · exact joinAttn_behind ..

/-- An action of a step that has taken its first leaves none started. -/
theorem act_behind (n : Nat) (s : State) (c : ChanId)
    (hs : ∀ st, s.step? c = some st → st.progress ≠ .fresh ∧ st.progress ≠ .waiting) : Behind n ((act s c).chan c) := by
  unfold act
  split
  · rename_i e
    apply behind_progress
    intro sc x e1 e2
    simp [e1, e2] at e
  · rename_i st e
    have h := step?_progress e (hs st e).1 n
    have hp (p : Progress) (x : p ≠ .fresh) : Behind n ((s.setProgress c p).chan c) := progress_behind n s c p x
    have hw := (hs st e).2
    dsimp only
    split
    · exact h
    · exact h
    · exact present_behind _ _ _ _ h
    · split
      · exact present_behind _ _ _ _ h
      · exact failAccess_behind _ h
      · exact startData_behind _ (hp _ (by simp))
    · exact startData_behind _ h
    · split
      · exact present_behind _ _ _ _ h
      · exact failAccess_behind _ h
      · exact present_behind _ _ _ _ (hp _ (by simp))
    · exact present_behind _ _ _ _ h
    · exact present_behind _ _ _ _ h
    · split
      · exact present_behind _ _ _ _ h
      · exact failStep_behind ..
    · exact startData_behind _ h
    · split
      · exact startData_behind _ h
      · exact failStep_behind ..
    · exact present_behind _ _ _ _ h
    · rename_i e; exact absurd e hw

theorem firstAct_behind (n : Nat) (c : ChanId) (p : Step → Progress) (s : State) (st : Step) (hp : p st ≠ .fresh)
    (hw : p st ≠ .waiting) : Behind n ((firstAct c p s st).chan c) := by
  apply act_behind
  intro x h
  simp only [step?_def, setProgress_eq, chan_setChan_self] at h
  cases e : (s.chan c).script with
  | none => simp [e] at h
  | some sc =>
    simp only [e, Option.map_some, Option.bind_some, Option.map_eq_some_iff] at h
    obtain ⟨_, _, rfl⟩ := h
    exact ⟨hp, hw⟩

theorem examine_behind {n : Nat} {s : State} {c : ChanId} (k : CounterId) (h : Behind n (s.chan c)) :
    Behind n ((examine s k).chan c) := by
  unfold examine
  dsimp only
  generalize syncWalk (s.counter k).value false (s.counter k).waiters = r
  obtain ⟨v, ws, cs⟩ := r
  have h : Behind n ((s.setCounter k { value := v, waiters := ws }).chan c) := h
  generalize s.setCounter k { value := v, waiters := ws } = t at h
  induction cs generalizing t with
  | nil => exact h
  | cons d ds ih =>
    apply ih
    by_cases e : c = d
    · subst e; exact progress_behind _ _ _ _ (by simp)
    · unfold markReleased; simpa [e] using h

theorem windowSize_turnTo (s : State) (c : ChanId) (l : List HostAddr) (p : HostAddr) :
    windowSize (turnTo s c l p) c ≤ windowSize s c := by
  unfold turnTo windowSize
  simp [discardFetch]
  cases (s.chan c).script <;> simp

theorem Behind.le {m n : Nat} {ch : Channel} (h : Behind m ch) (l : m ≤ n) : Behind n ch :=
  ⟨fun x => (h.window x).imp fun _ y => ⟨y.1, by omega⟩⟩

theorem runStep_behind (c : ChanId) (k : StepKind) (s : State) (st : Step) :
    Behind (windowSize s c) ((runStep c k s st).chan c) := by
  cases k
  case call =>
    simp only [runStep, runCall]; split
    · split
      · exact (completeStep_behind ..).le (windowSize_turnTo ..)
      · exact failStep_behind ..
    · rename_i e; exact behind_ending (by simp [e])
  case endStep =>
    simp only [runStep, runEnd]; split
    · split
      · rename_i sc e _ _
        simp only [endOk]; split
        · exact endScript_behind ..
        · rename_i e; exact behind_ending (by simp [e])
      · exact (completeStep_behind ..).le (windowSize_turnTo ..)
    · rename_i e; exact behind_ending (by simp [e])
  case delay => exact startDelay_behind ..
  case signal =>
    simp only [runStep, runSignal]; split
    · exact examine_behind _ (completeStep_behind (s.setCounter _ _) c)
    · exact failStep_behind ..
  case await => exact startAwait_behind ..
  case attend => exact startAttend_behind ..
  all_goals
    simp only [runStep, runWrite, runRead, runModify, runPoll, runBlockIn, runBlockOut]
    exact firstAct_behind _ c _ s st (by simp) (by simp)

/-- A started step that is carried out leaves a smaller window behind the next one. -/
theorem takeStep_behind (s : State) (c : ChanId) : takeStep s c = s ∨ Behind (windowSize s c) ((takeStep s c).chan c) := by
  unfold takeStep
  split
  · split
    · refine .inr ?_
      unfold checked
      split
      · exact runStep_behind ..
      · exact failStep_behind ..
    · exact .inl rfl
  · exact .inl rfl

/-! ## The rounds -/

theorem carryRounds_none {s : State} {c : ChanId} (h : startedStep (s.chan c) = false) (n : Nat) : carryRounds n s c = s := by
  cases n with
  | zero => rfl
  | succ n => simp [carryRounds, h]

theorem carryRounds_fixed {s : State} {c : ChanId} (h : takeStep s c = s) (n : Nat) : carryRounds n s c = s := by
  induction n with
  | zero => rfl
  | succ n ih => simp [carryRounds, h, ih]

/-- More rounds than the window has entries change nothing. -/
theorem carryRounds_enough (n m : Nat) (s : State) (c : ChanId) (hn : windowSize s c < n) (hm : windowSize s c < m) :
    carryRounds n s c = carryRounds m s c := by
  induction n generalizing s m with
  | zero => omega
  | succ n ih =>
    cases m with
    | zero => omega
    | succ m =>
      simp only [carryRounds]
      split
      · rcases takeStep_behind s c with e | e
        · rw [e, carryRounds_fixed e, carryRounds_fixed e]
        · cases h : startedStep ((takeStep s c).chan c) with
          | false => rw [carryRounds_none h, carryRounds_none h]
          | true =>
            obtain ⟨sc, hs, hl⟩ := e.window h
            have : windowSize (takeStep s c) c = sc.window.length := by simp [windowSize, hs]
            exact ih _ _ (by omega) (by omega)
      · rfl

/-- A started step is carried out first, and then what it has started. -/
theorem carrySteps_take {s : State} {c : ChanId} (h : startedStep (s.chan c) = true) :
    carrySteps s c = carrySteps (takeStep s c) c := by
  rcases takeStep_behind s c with e | e
  · rw [e]
  · unfold carrySteps
    rw [carryRounds, if_pos h]
    cases h : startedStep ((takeStep s c).chan c) with
    | false => rw [carryRounds_none h, carryRounds_none h]
    | true =>
      obtain ⟨sc, hs, hl⟩ := e.window h
      have : windowSize (takeStep s c) c = sc.window.length := by simp [windowSize, hs]
      exact carryRounds_enough _ _ _ _ (by omega) (by omega)

end Sys2Proof.Machine
end

