-- ==== Sys2Proof/Laws/Port.lean ====
section
/-! SUPPORT. What the shared operations of the port (Port.lean) leave as it was: the work of channels for the delivery of an
outcome, and `Kept` for service, breaks and changes of mode. -/

namespace Sys2Proof.Machine

open Sys2Proof.Safety

/-! ## The delivery of an outcome -/

theorem warnIfFull_work (s : State) (c : ChanId) (full : Bool) : ChanWork s (warnIfFull s c full) := by
  unfold warnIfFull; split
  · exact warn_work ..
  · exact ChanWork.refl s

theorem finishWrite_work (s : State) (c : ChanId) (st : Step) (full : Bool) : ChanWork s (finishWrite s c st full) := by
  unfold finishWrite; split
  · exact failStep_work ..
  · exact (warnIfFull_work ..).trans (completeStep_work ..)

theorem pollExhausted_work (s : State) (c : ChanId) (st : Step) (v : Value) : ChanWork s (pollExhausted s c st v) := by
  unfold pollExhausted; split
  · exact (warn_work ..).trans (completeStep_work ..)
  · exact failStep_work ..

theorem timer_work (s : State) (c : ChanId) (tm : Option Nat) (w : WaitReason) :
    ChanWork s (s.modChan c fun ch => { ch with timer := tm, wait := w }) :=
  ChanWork.chan s c (ChanKept.outer _ _ rfl rfl rfl rfl rfl)

theorem pollTried_work (s : State) (c : ChanId) (st : Step) (tries : Nat) (v : Value) :
    ChanWork s (pollTried s c st tries v) := by
  unfold pollTried
  refine ChanWork.trans (setProgress_work s c (.poll (tries - 1) v)) ?_
  generalize s.setProgress c (.poll (tries - 1) v) = t
  dsimp only
  split
  · exact completeStep_work ..
  · split
    · exact pollExhausted_work ..
    · split
      · split
        · exact act_work ..
        · exact timer_work ..
      · exact goOn_work ..

theorem blockOutDone_work (s : State) (c : ChanId) (st : Step) (d next : Nat) (full : Bool) :
    ChanWork s (blockOutDone s c st d next full) := by
  unfold blockOutDone
  refine ChanWork.trans (setProgress_work s c (.blockOut (d + 1) next none)) ?_
  generalize s.setProgress c (.blockOut (d + 1) next none) = t
  dsimp only
  split
  · exact failStep_work ..
  · split
    · exact (warnIfFull_work ..).trans (completeStep_work ..)
    · exact (warnIfFull_work ..).trans (continueStep_work ..)

theorem stepDone_work (s : State) (c : ChanId) (f : InFlight) (v : Value) (full : Bool) :
    ChanWork s (stepDone s c f v full) := by
  unfold stepDone
  split
  · exact ChanWork.refl s
  · split
    · exact finishWrite_work ..
    · exact (setProgress_work ..).trans (continueStep_work ..)
    · exact (setProgress_work ..).trans (continueStep_work ..)
    · exact finishWrite_work ..
    · exact pollTried_work ..
    · exact (setProgress_work ..).trans (continueStep_work ..)
    · exact blockOutDone_work ..
    all_goals exact ChanWork.refl s

theorem deliver_work (s : State) (f : InFlight) (o : AccessOutcome) (full : Bool) : ChanWork s (deliver s f o full) := by
  unfold deliver
  dsimp only
  split
  · split
    · exact stepDone_work ..
    · exact failAccess_work ..
  · split
    · exact stepDone_work ..
    · exact failAccess_work ..
  · exact (releaseLock_work ..).trans (goOn_work ..)
  · exact goOn_work ..
  · exact ChanWork.refl s
  · exact goOn_work ..
  all_goals exact ChanWork.refl s

/-! ## Changes of the ownership state -/

/-- A change of the Ownership Controller that leaves the three levels. -/
theorem own_kept (s : State) (o : Ownership) (h : o.req = s.own.req ∧ o.gnt = s.own.gnt ∧ o.brst = s.own.brst) :
    Kept s { s with own := o } :=
  { Kept.refl s with levels := h }

theorem enterHolding_kept (s : State) : Kept s (enterHolding s) := own_kept s _ ⟨rfl, rfl, rfl⟩

theorem enterSettling_kept (s : State) : Kept s (enterSettling s) := by
  unfold enterSettling; split
  · exact enterHolding_kept s
  · exact own_kept s _ ⟨rfl, rfl, rfl⟩

theorem grant_kept (s : State) : Kept s (grant s) := own_kept s _ ⟨rfl, rfl, rfl⟩

theorem giveUp_kept (s : State) : Kept s (giveUp s) := by
  unfold giveUp
  refine Kept.trans ?_ (askBus_work _).kept
  exact own_kept s _ ⟨rfl, rfl, rfl⟩

theorem startPulse_kept (s : State) (w : Nat) : Kept s (startPulse s w) := own_kept s _ ⟨rfl, rfl, rfl⟩

theorem startLockTimer_kept (s : State) : Kept s (startLockTimer s) := by
  unfold startLockTimer; split
  · exact own_kept s _ ⟨rfl, rfl, rfl⟩
  · exact Kept.refl s

theorem isolateChan_work (s : State) (c : ChanId) : ChanWork s (isolateChan s c) := by
  unfold isolateChan; split
  · exact (withdraw_work ..).trans (failAccess_work ..)
  · exact ChanWork.refl s

theorem leaveMode_kept (s : State) : Kept s (leaveMode s) := by
  unfold leaveMode
  refine Kept.trans ?_ (ChanWork.foldl _ isolateChan_work _ _).kept
  exact own_kept s _ ⟨rfl, rfl, rfl⟩

theorem enterMode_kept (s : State) (m : PortMode) : Kept s (enterMode s m) := by
  unfold enterMode
  refine Kept.trans (own_kept s { s.own with mode := m, passage := none, turnTimer := none } ⟨rfl, rfl, rfl⟩) ?_
  dsimp only
  split
  · exact Kept.refl _
  · split
    · exact grant_kept _
    · exact enterSettling_kept _
  · refine Kept.trans ?_ (askBus_work _).kept
    exact own_kept _ _ ⟨rfl, rfl, rfl⟩

theorem endPassage_kept (s : State) (m : PortMode) : Kept s (endPassage s m) := by
  unfold endPassage
  dsimp only
  split
  · refine Kept.trans ((enterMode_kept s m).trans ?_) (adminDone_work _ .portMode .ok 0 (by simp)).kept
    exact own_kept _ _ ⟨rfl, rfl, rfl⟩
  · exact enterMode_kept s m

/-- The way out of a mode into a passage, or to ISOLATED. -/
theorem passage_kept (s : State) (m : PortMode) (p : PortParams) :
    Kept s (match m with
      | .isolated => adminDone s .portMode .ok 0
      | _ =>
        let s := { s with own := { s.own with passage := some m, answers := true, turnTimer := startTimer p.turnaround } }
        if p.turnaround = 0 then endPassage s m else s) := by
  have h : ∀ t : State, t = { s with own := { s.own with
      passage := some m, answers := true, turnTimer := startTimer p.turnaround } } →
      Kept s (if p.turnaround = 0 then endPassage t m else t) := by
    intro t ht
    have k : Kept s t := ht ▸ own_kept s _ ⟨rfl, rfl, rfl⟩
    split
    · exact k.trans (endPassage_kept t m)
    · exact k
  cases m
  · exact (adminDone_work _ .portMode .ok 0 (by simp)).kept
  · exact h _ rfl
  · exact h _ rfl

theorem changeMode_kept (s : State) (m : PortMode) (p : PortParams) : Kept s (changeMode s m p) := by
  unfold changeMode
  dsimp only
  have k : Kept s { s with own := { s.own with params := p, cmd := none, changeTimer := none, passage := none } } :=
    own_kept s _ ⟨rfl, rfl, rfl⟩
  refine k.trans ?_
  generalize { s with own := { s.own with params := p, cmd := none, changeTimer := none, passage := none } } = t
  split
  · exact (enterMode_kept t m).trans (adminDone_work _ .portMode .ok 0 (by simp)).kept
  · refine (leaveMode_kept t).trans ?_
    exact passage_kept (leaveMode t) m p

theorem changeIfWaiting_kept (s t : State) (h : changeIfWaiting s = some t) : Kept s t := by
  unfold changeIfWaiting at h
  split at h
  · cases h; exact changeMode_kept ..
  · cases h

/-! ## Issue and service -/

/-- A search of the table finds a valid window that holds the address (R91). -/
theorem lookup_some {t : Vector (Option Region) 16} {a : BusAddr} {i : RegionId} {g : Region} (h : lookup t a = some (i, g)) :
    t[i] = some g ∧ g.holds a = true := by
  unfold lookup at h
  obtain ⟨j, -, hj⟩ := List.exists_of_findSome?_eq_some h
  split at hj
  · rename_i g' e
    split at hj
    · cases hj; exact ⟨e, ‹_›⟩
    · cases hj
  · cases hj

/-- What a request that passes its checks meets (R75). -/
theorem checkIssue_inr {s : State} {c : ChanId} {r : Request} {i : RegionId} {g : Region} {v : Option Value}
    (h : checkIssue s c r = .inr (i, g, v)) : s.own.mode ≠ .isolated ∧ lookup s.regions r.addr = some (i, g) := by
  by_cases hm : s.own.mode = .isolated
  · simp [checkIssue, hm] at h
  · refine ⟨hm, ?_⟩
    cases hl : lookup s.regions r.addr with
    | none => simp [checkIssue, hm, hl] at h
    | some p =>
      simp only [checkIssue, hm, hl, if_false] at h
      split_ifs at h with h1 h2 h3
      · cases hd : driven s c r p.2 with
        | none => rw [hd] at h; exact nomatch h
        | some x => rw [hd] at h; injection h with h; injection h with a b; injection b with b; rw [← a, ← b]
      · injection h with h; injection h with a b; injection b with b; rw [← a, ← b]

theorem takeLock_kept (s : State) (c : ChanId) (m : Option LockKind) : Kept s (takeLock s c m) := by
  unfold takeLock; split
  · refine Kept.trans ?_ (startLockTimer_kept _)
    exact { Kept.refl s with }
  · exact Kept.refl s

theorem takeLock_inflight (s : State) (c : ChanId) (m : Option LockKind) :
    (takeLock s c m).arb.inflight = s.arb.inflight := by
  unfold takeLock startLockTimer; split
  · dsimp only; split <;> rfl
  · rfl

theorem markIssued_work (s : State) (c : ChanId) : ChanWork s (markIssued s c) := by
  unfold markIssued; split
  · split
    · exact setProgress_work ..
    · exact ChanWork.refl s
  · exact ChanWork.refl s

theorem beginAccess_kept (s : State) (c : ChanId) (r : Request) (i : RegionId) (g : Region) (v : Option Value)
    (hf : s.arb.inflight = none) (hr : s.region i = some g) (ha : g.holds r.addr = true) :
    Kept s (beginAccess s c r i g v) := by
  unfold beginAccess
  have k := takeLock_kept s c r.mark
  have kf := takeLock_inflight s c r.mark
  generalize takeLock s c r.mark = t at k kf
  dsimp only
  refine Kept.trans (k.trans (Kept.trans ?_ (markIssued_work _ c).kept)) (setWait_work _ c .access).kept
  exact { Kept.refl t with
    inflight := .inr ⟨kf.trans hf, fun f e => by
      cases e
      have : t.region i = s.region i := by simp only [State.region, k.regions]
      exact ⟨this.trans hr, ha⟩⟩ }

theorem issue_kept (s : State) (c : ChanId) (hf : s.arb.inflight = none) : Kept s (issue s c) := by
  unfold issue
  split
  · exact Kept.refl s
  · have k : Kept s { withdraw s c with arb := { (withdraw s c).arb with lastServed := c } } := { Kept.refl s with }
    have kf : ({ withdraw s c with arb := { (withdraw s c).arb with lastServed := c } } : State).arb.inflight = none := hf
    generalize { withdraw s c with arb := { (withdraw s c).arb with lastServed := c } } = t at k kf
    dsimp only
    split
    · exact k.trans (failAccess_work ..).kept
    · rename_i i g v e
      have e' := lookup_some (checkIssue_inr e).2
      exact k.trans (beginAccess_kept t c _ i g v kf e'.1 e'.2)

theorem serveOne_kept (s t : State) (h : serveOne s = some t) : Kept s t := by
  unfold serveOne at h
  split at h
  · cases h
  · rename_i ho
    have hf : s.arb.inflight = none := by
      simp [portOpen] at ho; exact ho.1.2
    split at h
    · split at h
      · cases h; exact issue_kept s _ hf
      · cases h
    · split at h
      · cases h; exact grant_kept s
      · split at h
        · cases h; exact changeMode_kept ..
        · cases h; exact startPulse_kept ..
        · split at h
          · cases h; exact giveUp_kept s
          · split at h
            · cases h; exact issue_kept s _ hf
            · split at h
              · cases h; exact giveUp_kept s
              · cases h

theorem serveRounds_kept (n : Nat) (s : State) : Kept s (serveRounds n s) := by
  induction n generalizing s with
  | zero => exact Kept.refl s
  | succ n ih =>
    unfold serveRounds
    split
    · rename_i s' h
      exact (serveOne_kept s s' h).trans (ih s')
    · exact Kept.refl s

theorem serve_kept (s : State) : Kept s (serve s) := serveRounds_kept 8 s

/-- A port at which no claim stands serves nothing. -/
theorem serve_of_none {s : State} (h : serveOne s = none) : serve s = s := by simp only [serve, serveRounds, h]

/-- A port at which one claim stands, and none behind it, serves that one. -/
theorem serve_of_one {s t : State} (h : serveOne s = some t) (h' : serveOne t = none) : serve s = t := by
  simp only [serve, serveRounds, h, h']

/-- A closed port serves nothing (R82, R87). -/
theorem serveOne_closed {s : State} (h : portOpen s = false) : serveOne s = none := by
  unfold serveOne; rw [h]; rfl

/-! ## Breaks and preemption -/

theorem lockBroken_work (s : State) (c : ChanId) : ChanWork s (lockBroken s c) := by
  unfold lockBroken
  dsimp only
  split
  · split
    · exact endScript_work ..
    · exact ChanWork.refl s
  · exact ChanWork.refl s

theorem breakLock_work (s : State) : ChanWork s (breakLock s) := by
  unfold breakLock; split
  · exact ((clearLock_work s).trans (withdraw_work ..)).trans (lockBroken_work ..)
  · exact ChanWork.refl s

/-- A change of the Event Unit. -/
theorem events_kept (s : State) (e : EventUnit) : Kept s { s with events := e } := { Kept.refl s with }

theorem startEventWrite_kept (s : State) : Kept s (startEventWrite s) := by
  unfold startEventWrite
  dsimp only
  split
  · split
    · exact Kept.refl s
    · exact events_kept s _
  · exact Kept.refl s

theorem raiseEvent_kept (s : State) (k : EventKind) (src : Nat) (d : Detail) : Kept s (raiseEvent s k src d) :=
  (events_kept s _).trans (startEventWrite_kept _)

theorem preempt_kept (s : State) : Kept s (preempt s) := by
  unfold preempt
  have k : Kept s { breakLock s with own := { (breakLock s).own with
      state := .released, holdTimer := none, turnTimer := none, holdPassed := false, preemptDue := false } } :=
    (breakLock_work s).kept.trans (own_kept _ _ ⟨rfl, rfl, rfl⟩)
  dsimp only
  generalize { breakLock s with own := { (breakLock s).own with
    state := .released, holdTimer := none, turnTimer := none, holdPassed := false, preemptDue := false } } = t at k
  have k' := k.trans (raiseEvent_kept t .preempted 0 0)
  generalize raiseEvent t .preempted 0 0 = u at k'
  split
  · rename_i s' h
    exact k'.trans (changeIfWaiting_kept _ _ h)
  · exact k'.trans (askBus_work _).kept

theorem waitingBreaks_kept (s : State) : Kept s (waitingBreaks s) := by
  have h : ∀ t : State, Kept s t → Kept s (if t.own.preemptDue then preempt t else t) := by
    intro t k
    split
    · exact k.trans (preempt_kept t)
    · exact k
  unfold waitingBreaks
  refine h _ ?_
  split
  · refine Kept.trans ?_ (breakLock_work _).kept
    exact own_kept s _ ⟨rfl, rfl, rfl⟩
  · exact Kept.refl s

/-! ## The end of a happening -/

/-- With no region change waiting, the end of a happening leaves what `Kept` names. -/
theorem afterDelivery_kept {s : State} (h : s.regionWait = none) : Kept s (afterDelivery s) := by
  unfold afterDelivery
  have b := waitingBreaks_kept s
  have e : waitingRegion (waitingBreaks s) = waitingBreaks s := by
    simp only [waitingRegion, b.regionWait, h]
  rw [e]
  exact (b.trans (finishReleases_work _).kept).trans (serve_kept _)

theorem settle_kept {s : State} (h : s.regionWait = none) : Kept s (settle s) := by
  have k := (finishReleases_work s).kept
  unfold settle
  dsimp only
  split
  · exact k
  · exact k.trans (afterDelivery_kept (k.regionWait.trans h))

/-- While an access is in flight nothing follows at the port. -/
theorem settle_held {s : State} (h : s.arb.inflight.isSome = true) : settle s = finishReleases s := by
  have e : (finishReleases s).arb.inflight = s.arb.inflight := (finishReleases_work s).inflight
  unfold settle
  dsimp only
  rw [e, if_pos h]

/-- Where no step was released and nothing waits for the end of an access, the end of a happening is the service of the
port. -/
theorem settle_serve {s : State} (hq : Quiescent s) (hw : NothingWaits s) : settle s = serve s := by
  unfold settle
  rw [finishReleases_self hq]
  dsimp only
  by_cases hf : s.arb.inflight.isSome = true
  · rw [if_pos hf, serve_of_none (serveOne_closed (by
      simp only [portOpen, Bool.and_eq_false_iff]
      exact .inl (.inr (by simpa [Option.isNone_iff_eq_none, Option.isSome_iff_ne_none] using hf))))]
  · have w : waitingRegion (waitingBreaks s) = s := by
      simp [waitingBreaks, waitingRegion, hw.1, hw.2.1, hw.2.2]
    rw [if_neg hf]
    simp only [afterDelivery, w, finishReleases_self hq]

theorem resetPort_kept (s : State) : Kept s (resetPort s) := by
  have k := (clearLock_work s).kept
  unfold resetPort
  generalize clearLock s = t at k
  dsimp only
  split
  · exact k.trans (own_kept t _ ⟨rfl, rfl, rfl⟩)
  · exact k.trans (own_kept t _ ⟨rfl, rfl, rfl⟩)

end Sys2Proof.Machine
end

