-- ==== Sys2Proof/Laws/Units.lean ====
section
/-! SUPPORT. The shared operations of the rings, the Region Table, the Shadow Store and the waiter lists: one lemma for each says
what it can do. -/

namespace Sys2Proof.Machine

open Sys2Proof.Safety

/-! ## Rings (08) -/

/-- An index stays below its ring's size (R164). -/
theorem wrapInc_lt {size i : Nat} (h : 0 < size) : wrapInc size i < size := by unfold wrapInc; split <;> omega

theorem hasRecord_iff (r : RingPair) : r.hasRecord = true ↔ r.sqHead ≠ r.sqTail := by simp [RingPair.hasRecord]

theorem hasSlot_iff (r : RingPair) (b : Bool) : r.hasSlot b = true ↔ r.unconsumed + (if b then 1 else 0) < r.cqSize := by
  simp [RingPair.hasSlot]

@[simp] theorem advanceHead_unconsumed (r : RingPair) : r.advanceHead.unconsumed = r.unconsumed := rfl
@[simp] theorem advanceHead_cqSize (r : RingPair) : r.advanceHead.cqSize = r.cqSize := rfl
@[simp] theorem post_unconsumed (r : RingPair) : r.post.unconsumed = r.unconsumed + 1 := rfl
@[simp] theorem post_cqSize (r : RingPair) : r.post.cqSize = r.cqSize := rfl
@[simp] theorem hostWrite_cqSize (r : RingPair) (t h : Nat) : (r.hostWrite t h).cqSize = r.cqSize := rfl

theorem hostWrite_unconsumed_le (r : RingPair) (t h : Nat) : (r.hostWrite t h).unconsumed ≤ r.unconsumed :=
  Nat.sub_le _ _

/-- An address that does not pass the top is the sum. -/
theorem hostAdd_of_lt {a : HostAddr} {k : Nat} (h : a.toNat + k < 2 ^ 64) : hostAdd a k = BitVec.ofNat 64 (a.toNat + k) := by
  unfold hostAdd Config.hostAddresses; rw [if_pos h]

/-! ## The Region Table (04) -/

/-- An address in two windows means that they overlap (R90). -/
theorem overlaps_of_holds {g h : Region} {a : BusAddr} (hg : g.holds a = true) (hh : h.holds a = true) :
    g.overlaps h = true := by
  simp [Region.holds, Region.overlaps] at *; omega

theorem overlaps_comm (g h : Region) : g.overlaps h = h.overlaps g := by
  simp only [Region.overlaps]; exact Bool.and_comm _ _

/-- No window of another index overlaps (R96). -/
theorem overlapOf_none {s : State} {i : RegionId} {g : Region} :
    overlapOf s.regions i g = none ↔ ∀ j h, j ≠ i → s.region j = some h → h.overlaps g = false := by
  unfold overlapOf
  rw [List.find?_eq_none]
  constructor
  · intro k j h hj hr
    have := k j (List.mem_finRange j)
    simp only [State.region] at hr
    simp only [hr] at this
    simpa [hj] using this
  · intro k j _
    cases hr : s.regions[j] with
    | none => simp
    | some h =>
      by_cases hj : j = i
      · simp [hj]
      · simp [k j h hj hr]

/-- The lowest index whose window overlaps (R96). -/
theorem overlapOf_some {s : State} {i j : RegionId} {g h : Region} (hj : j ≠ i) (hr : s.region j = some h)
    (ho : h.overlaps g = true) (hm : ∀ k h', k ≠ i → k < j → s.region k = some h' → h'.overlaps g = false) :
    overlapOf s.regions i g = some j := by
  unfold overlapOf
  rw [List.find?_eq_some_iff_getElem]
  refine ⟨?_, j.val, by simp, by simp, ?_⟩
  · simp only [State.region] at hr
    simp [hr, hj, ho]
  · intro k hk
    have key : ∀ x : RegionId, x < j →
        (!(match s.regions[x] with
          | some h => x != i && h.overlaps g
          | none => false)) = true := by
      intro x hx
      cases hrx : s.regions[x] with
      | none => simp
      | some h' =>
        by_cases hxi : x = i
        · simp [hxi]
        · simp [hm x h' hxi hx hrx]
    have := key ⟨k, by omega⟩ hk
    simp only [List.getElem_finRange]
    exact this

/-! ## The Shadow Store (06) -/

/-- The addresses of the store after a put: the same, with the one address behind them where it was not held. -/
theorem shadowPut_addrs (es : List ShadowEntry) (a : BusAddr) (v : Value) (i : RegionId) :
    (shadowPut es a v i).map (fun e => e.addr) =
      if shadowHas es a then es.map fun e => e.addr else es.map (fun e => e.addr) ++ [a] := by
  unfold shadowPut
  split
  · rw [List.map_map]
    apply List.map_congr_left
    intro e _
    simp only [Function.comp]
    split <;> rfl
  · simp

theorem shadowHas_iff (es : List ShadowEntry) (a : BusAddr) : shadowHas es a = true ↔ ∃ e ∈ es, e.addr = a := by
  simp [shadowHas]

/-- A put keeps the addresses distinct. -/
theorem shadowPut_nodup {es : List ShadowEntry} (a : BusAddr) (v : Value) (i : RegionId)
    (h : (es.map fun e => e.addr).Nodup) : ((shadowPut es a v i).map fun e => e.addr).Nodup := by
  rw [shadowPut_addrs]
  split
  · exact h
  · rename_i hn
    rw [List.nodup_append]
    refine ⟨h, by simp, ?_⟩
    intro x hx y hy
    simp only [List.mem_singleton] at hy
    subst hy
    rintro rfl
    obtain ⟨e, he, rfl⟩ := List.mem_map.mp hx
    exact hn ((shadowHas_iff es _).mpr ⟨e, he, rfl⟩)

/-- An entry after a put is an entry held before, the value apart, or the new one. -/
theorem shadowPut_mem {es : List ShadowEntry} {a : BusAddr} {v : Value} {i : RegionId} {e : ShadowEntry}
    (h : e ∈ shadowPut es a v i) :
    (∃ e' ∈ es, e.addr = e'.addr ∧ e.index = e'.index) ∨ e = { addr := a, value := v, index := i } := by
  unfold shadowPut at h
  split at h
  · obtain ⟨e', h', rfl⟩ := List.mem_map.mp h
    refine .inl ⟨e', h', ?_⟩
    split <;> exact ⟨rfl, rfl⟩
  · rcases List.mem_append.mp h with h | h
    · exact .inl ⟨e, h, rfl, rfl⟩
    · exact .inr (by simpa using h)

/-- A put that the store has room for keeps it within its size. -/
theorem shadowPut_length {es : List ShadowEntry} {a : BusAddr} (v : Value) (i : RegionId) (h : es.length ≤ 64)
    (hf : shadowIsFull es a = false) : (shadowPut es a v i).length ≤ 64 := by
  unfold shadowPut
  split
  · simpa using h
  · rename_i hn
    rw [Bool.not_eq_true] at hn
    unfold shadowIsFull at hf
    rw [hn] at hf
    replace hf : ¬ 64 ≤ es.length := fun hc => by
      rw [show Config.shadowSize = 64 from rfl, decide_eq_true hc] at hf
      exact absurd hf (by decide)
    rw [List.length_append]
    simp only [List.length_cons, List.length_nil]
    omega

/-! ## Waiter lists (07) -/

/-- A channel on no counter's list is left where it is. -/
theorem leaveCounter_self {s : State} {c : ChanId} {k : CounterId} (h : ∀ w ∈ (s.counter k).waiters, w.chan ≠ c) :
    leaveCounter c s k = s := by
  unfold leaveCounter
  have : (s.counter k).waiters.find? (fun w => w.chan == c) = none := by simpa using h
  rw [this]

/-- A channel on no line's list is left where it is. -/
theorem leaveLine_self {s : State} {c : ChanId} {n : LineId} (h : ∀ w ∈ (s.line n).waiters, w.chan ≠ c) :
    leaveLine c s n = s := by
  unfold leaveLine
  have : (s.line n).waiters.filter (fun w => w.chan != c) = (s.line n).waiters := by
    rw [List.filter_eq_self]; simpa using h
  rw [this]; exact setLine_line s n

/-- A channel on no list stays on none. -/
theorem leaveLists_self {s : State} {c : ChanId} (h : OnNoList s c) : leaveLists s c = s := by
  have h1 : leaveSync s c = s := by
    unfold leaveSync
    have : ∀ l : List CounterId, l.foldl (leaveCounter c) s = s := by
      intro l
      induction l with
      | nil => rfl
      | cons k l ih => simp only [List.foldl_cons, leaveCounter_self (h.1 k), ih]
    exact this _
  unfold leaveLists
  rw [h1]
  unfold leaveAttn
  have : ∀ l : List LineId, l.foldl (leaveLine c) s = s := by
    intro l
    induction l with
    | nil => rfl
    | cons n l ih => simp only [List.foldl_cons, leaveLine_self (h.2 n), ih]
  exact this _

/-- A request not presented is withdrawn without effect. -/
theorem withdraw_self {s : State} {c : ChanId} (h : s.presentedOf c = none) : withdraw s c = s := by
  have : s.arb.presented.set c none = s.arb.presented := by
    have h' : s.arb.presented[c] = none := h
    conv => lhs; rw [← h']
    simp
  unfold withdraw State.setPresented
  rw [this]

end Sys2Proof.Machine
end

