-- ==== Sys2Proof/Tests/Slice0.lean ====
section
/-! SUPPORT. Tests: ill-formed commands that WellFormed refuses, records and register writes decoded, one small run of each
family of commands, and for every statement that has hypotheses a state and operands that meet them, clause by clause. -/

namespace Sys2Proof.Tests

set_option Elab.async false

open Sys2Proof.Machine Sys2Proof.Safety

/-! ## Helpers -/

/-- A number whose bytes from each offset on are a value: the record with those fields. -/
def fields (fs : List (Nat × Nat)) : Nat := fs.foldl (fun n p => n + p.2 * 2 ^ (8 * p.1)) 0

/-- An admin command record with these fields (11.2). -/
def adm (fs : List (Nat × Nat)) : Record32 := BitVec.ofNat 256 (fields fs)

/-- A step as it has started, its record having these fields. -/
def stepWith (p : Progress) (fs : List (Nat × Nat)) : Step :=
  { addr := 0x3000, bits := BitVec.ofNat 128 (fields fs), progress := p }

/-- The bridge after its initialisation. -/
def up : State := { State.reset with ready := true }

/-- A command's read is in flight. -/
def taking (s : State) : State := { s with admin := { s.admin with progress := .reading 0 } }

def rings4 : RingPair := RingPair.configured 0x1000 4 0x2000 4

def script0 : Script :=
  { tagValid := true, tag := 5, notify := false, lockBus := false, haltOnError := false, shadowStrict := false, budget := 0,
    executed := 0, ordinals := 1, warnings := Warnings.empty, current := none, checked := true, listPos := 0x3000,
    window := [], links := [], ending := none }

def idleCh : Channel := { Channel.reset with st := .idle, rings := some rings4 }

def runCh (sc : Script) : Channel := { idleCh with st := .running, reserved := true, script := some sc }

/-- Channel 0, RUNNING, with this step current. -/
def inStep (st : Step) (s : State) : State := s.setChan 0 (runCh { script0 with current := some st })

/-- The port in MASTER mode, HOLDING. -/
def master (s : State) : State := { s with own := { s.own with mode := .master, state := .holding } }

/-- The port in GUEST mode, HOLDING with GNT. -/
def guest (s : State) : State := { s with own := { s.own with mode := .guest, state := .holding, gnt := true } }

/-- A read and write window of words over 0x0000 to 0x00FF. -/
def plain : Region :=
  { base := 0, pages := 1, width := .w16, rights := .readWrite, setup := 0, strobe := 1, hold := 0, readyMode := .sampled,
    timeout := 1, retries := 1 }

/-- A shadowed window of bytes over 0x0100 to 0x01FF. -/
def shaded : Region := { plain with base := 0x100, width := .w8, rights := .writeOnlyShadowed, readyMode := .fixed }

/-- Entry 0 plain, entry 1 shadowed, and one shadow entry. -/
def mapped (s : State) : State :=
  { (s.setRegion 0 (some plain)).setRegion 1 (some shaded) with shadow := [{ addr := 0x1FF, value := 0x33, index := 1 }] }

/-- A region change that waits. -/
def changes (w : RegionChange) : State :=
  { mapped (master up) with regionWait := some w, admin := { Admin.reset with progress := .waiting 1 .region } }

/-- The access in flight of channel 0. -/
def flying (p : Purpose) (v : Option Value) (g : Region) (i : RegionId) (a : BusAddr) (n : Nat) (s : State) : State :=
  let f : InFlight :=
    { chan := 0, addr := a, purpose := p, value := v, mark := none, index := i, region := g, attempt := n }
  { s with arb := { s.arb with inflight := some f } }

/-- A request of a channel stands presented. -/
def request0 (p : Purpose) (v : Option Value) (a : BusAddr) : Request :=
  { addr := a, purpose := p, value := v, mark := none, attempt := 1, presentedAt := 0 }
def asks (c : ChanId) (s : State) : State := s.setPresented c (some (request0 .write (some 0xFFFF) 0xFE))

/-- The ownership state changed by a function, and a lock of channel 0. -/
def owned (o : Ownership → Ownership) (s : State) : State := { s with own := o s.own }
def lockHeld (s : State) : State := { s with arb := { s.arb with lock := some (0, .script) } }

/-- A command answers a next state of which a test holds. -/
def after (i : Instr) (s : State) (p : State → Bool) : Bool :=
  match exec i s with
  | .next t => p t
  | .fault _ => false
  | .refused _ => false

/-! ## WellFormed refuses -/

theorem test_wellFormed_wrong_code : Instr.wellFormed (.startChannel (adm [(0, 3)])) = false := by decide +kernel

theorem test_wellFormed_abort_flush : Instr.wellFormed (.abortChannel (adm [(0, 4), (5, 1)])) = false := by decide +kernel

theorem test_wellFormed_flush_current : Instr.wellFormed (.abortChannelFlush (adm [(0, 4)])) = false := by decide +kernel

theorem test_wellFormed_known_code : Instr.wellFormed (.unknownCommand (adm [(0, 0x11)])) = false := by decide +kernel

theorem test_wellFormed_real_register : Instr.wellFormed (.noRegisterWrite 0x10 4 0) = false := by decide +kernel

/-! ## Records and register writes decode (11.2, 11.5, 11.6) -/

theorem test_decode_records :
    (decodeAdminRecord (adm [(0, 0x01)]), decodeAdminRecord (adm [(0, 0x04)]), decodeAdminRecord (adm [(0, 0x04), (5, 1)]),
      decodeAdminRecord (adm [(0, 0x0A)]), decodeAdminRecord (adm [(0, 0x11)]), decodeAdminRecord (adm [(0, 0x12)])) =
    (.configureChannel (adm [(0, 1)]), .abortChannel (adm [(0, 4)]), .abortChannelFlush (adm [(0, 4), (5, 1)]),
      .setPortMode (adm [(0, 10)]), .configureEvents (adm [(0, 17)]), .unknownCommand (adm [(0, 18)])) := by
  decide +kernel

theorem test_decode_registers :
    (decodeRegisterWrite 0x00 4 1, decodeRegisterWrite 0x00 4 2, decodeRegisterWrite 0x08 8 0x1000,
      decodeRegisterWrite 0x0C 4 7, decodeRegisterWrite 0x34 4 0x20001, decodeRegisterWrite 0x04 4 1) =
    (.enable true, .bridgeReset false, .adminBase (.full 0x1000), .adminBase (.high 7), .channelQueueIndexWrite 3 0x20001,
      .noRegisterWrite 0x04 4 1) := by
  decide +kernel

/-! ## Small runs of the commands, one field or two of each next state (values from the rules cited) -/

/-- R19: a STOPPED channel becomes IDLE. -/
theorem test_start : after (.startChannel (adm [(0, 2), (4, 3)])) (taking (up.setChan 3 { idleCh with st := .stopped }))
    (fun t => (t.chan 3).st == .idle) = true := by
  decide +kernel

/-- R127: a BACKPLANE_RESET outside MASTER mode is refused. -/
theorem test_reset_isolated : after (.backplaneReset (adm [(0, 11), (4, 1)])) (taking up)
    (fun t => match t.admin.progress with
      | .completing w => w.bytes.take 4 == [0, 0, 5, 1]
      | _ => false) = true := by
  decide +kernel

/-- R14, 11.3: the fields of a completion record, steps executed held at 24 bits. -/
theorem test_completion_bytes :
    completionBytes 0x1234 .regionMiss Warnings.empty true 2 20000000 3 0xABCDEF =
      [0x34, 0x12, 0x20, 0x80, 2, 0, 0xFF, 0xFF, 0xFF, 3, 0, 0, 0xEF, 0xCD, 0xAB, 0] := by
  decide +kernel

/-- R188, 11.3: the fields of an event record. -/
theorem test_event_bytes :
    eventBytes { kind := .channelFault, source := 2, occurrences := 258, stamp := 0x01020304, detail := 3 } true =
      [3, 2, 2, 1, 1, 0, 0, 0, 4, 3, 2, 1, 3, 0, 0, 0] := by
  decide +kernel

/-- 11.4: the fields of a region entry record. -/
theorem test_region_bytes :
    regionBytes (some { plain with base := 0x123400, setup := 7, hold := 5, timeout := 0x0ABC, pages := 0x10203 }) =
      [1, 16, 0, 0, 0x00, 0x34, 0x12, 1, 3, 2, 1, 7, 1, 5, 0xBC, 0x0A] := by
  decide +kernel

/-- R67, R69: a WRITE at an open port is in flight with its value, and nothing is presented. -/
theorem test_write_issued :
    after (.write 0) (inStep (stepWith .fresh [(0, 1), (2, 0xFE), (8, 0xBEEF)]) (master (mapped up))) (fun t =>
      (match t.arb.inflight with
        | some f => f.value == some 0xBEEF && f.addr == 0xFE && f.index == 0 && f.attempt == 1
        | none => false) && t.noneP && (t.chan 0).wait == .access) = true := by
  decide +kernel

/-- R75: an odd address in a window of words fails with MISALIGNED, the address as detail (R37). -/
theorem test_write_misaligned :
    after (.write 0) (inStep (stepWith .fresh [(0, 1), (2, 0xFD)]) (master (mapped up))) (fun t =>
      match (t.chan 0).script with
      | some sc => sc.ending == some { status := .misaligned, ordinal := 1, detail := 0xFD }
      | none => false) = true := by
  decide +kernel

/-- R76: an address in no window fails with REGION_MISS. -/
theorem test_read_region_miss :
    after (.read 0) (inStep (stepWith .fresh [(0, 2), (2, 0x200)]) (master (mapped up))) (fun t =>
      match (t.chan 0).script with
      | some sc => sc.ending == some { status := .regionMiss, ordinal := 1, detail := 0x200 }
      | none => false) = true := by
  decide +kernel

/-- R38, R43: a READ in a shadowed window is served from the store and written to host memory. -/
theorem test_read_shadowed :
    after (.read 0) (inStep (stepWith .fresh [(0, 2), (2, 0x1FF), (8, 0x4000)]) (master (mapped up))) (fun t =>
      (t.chan 0).data == some (.readWrite { addr := 0x4000, bytes := [0x33, 0] })) = true := by
  decide +kernel

/-- R44, R46: a MODIFY of a shadowed register drives the store's value with the mask's bits cleared and set, in 8 bits. -/
theorem test_modify_shadowed :
    after (.modify 0) (inStep (stepWith .fresh [(0, 3), (2, 0x1FF), (8, 0x03), (10, 0xFF44)]) (master (mapped up))) (fun t =>
      match t.arb.inflight with
      | some f => f.value == some 0x74
      | none => false) = true := by
  decide +kernel

/-- R67: a read through a window of bytes takes the low lane alone. -/
theorem test_read_low_lane :
    after (.accessDone 0xABCD)
      (flying .read none { plain with width := .w8 } 0 0xFE 1
        (inStep (stepWith .read [(0, 2), (2, 0xFE), (8, 0x4000)]) (master up)))
      (fun t => (t.chan 0).data == some (.readWrite { addr := 0x4000, bytes := [0xCD, 0] })) = true := by
  decide +kernel

/-- R73: a ready timeout with a retry left issues the access again, as attempt 2. -/
theorem test_retry :
    after .readyTimeout
      (flying .read none plain 0 0xFE 1 (inStep (stepWith .read [(0, 2), (2, 0xFE)]) (master (mapped up))))
      (fun t => match t.arb.inflight with
        | some f => f.attempt == 2
        | none => false) = true := by
  decide +kernel

/-- R42, R73: the retry of a write tried in 8 bits, its window now one of words, drives the whole value. -/
theorem test_retry_value :
    after .readyTimeout
      (flying .write (some 0xBEEF) { plain with width := .w8 } 0 0xFE 1
        (inStep (stepWith .write [(0, 1), (2, 0xFE), (8, 0xBEEF)]) (master (mapped up))))
      (fun t => match t.arb.inflight with
        | some f => (signalsData f).ll == some 0xEF && (signalsData f).ul == some 0xBE
        | none => false) = true := by
  decide +kernel

/-- R82: a request that joins an open port is issued at once, though a channel nearer in the round has a step to carry out. -/
theorem test_join_served :
    after (.write 1)
      ((inStep (stepWith .fresh [(0, 1), (2, 0xFE)]) (master (mapped up))).setChan 1
        (runCh { script0 with current := some (stepWith .fresh [(0, 1), (2, 0xFC)]) }))
      (fun t => t.arb.inflight.any fun f => f.chan == 1 && f.addr == 0xFC) = true := by
  decide +kernel

/-- Channel 0 in the access of its WRITE, this record behind it in the window. -/
def followed (fs : List (Nat × Nat)) (s : State) : State :=
  flying .write (some 1) plain 0 0xFE 1
    (s.setChan 0 (runCh { script0 with
      lockBus := true, current := some (stepWith .write [(0, 1), (2, 0xFE)]), window := [.record 0x3010 (BitVec.ofNat 128 (fields fs))] }))

/-- R8, R74, R82: the WRITE that the DONE starts is presented and issued within it, in GUEST mode too. -/
theorem test_done_then_next :
    after (.accessDone 0) (followed [(0, 1), (2, 0xFC)] (guest (mapped up)))
      (fun t => t.own.state == .holding && t.arb.inflight.any fun f => f.addr == 0xFC) = true := by
  decide +kernel

/-- R74, R97: the region change that waited acts as the access ends, and the WRITE that the DONE starts is checked against the
table it leaves. -/
theorem test_done_then_change :
    after (.accessDone 0) (followed [(0, 1), (2, 0xFC)] (changes (.clear 0)))
      (fun t => t.regionWait.isNone && (t.region 0).isNone && t.arb.inflight.isNone &&
        (t.chan 0).script.any fun sc => sc.ending.any fun e => e.status == .regionMiss) = true := by
  decide +kernel

/-- R57, R74, R86, R113: the END that the DONE starts gives up the lock, and the break that waited is void. -/
theorem test_done_then_end :
    after (.accessDone 0)
      (followed [(0, 8)]
        (owned (fun o => { o with breakDue := true }) { master (mapped up) with arb := { up.arb with lock := some (0, .script) } }))
      (fun t => t.arb.lock.isNone && !t.own.breakDue &&
        (t.chan 0).script.any fun sc => sc.ending.any fun e => e.status == .ok) = true := by
  decide +kernel

/-- R20, R152, R161: the edge that releases an ATTEND completes it, and the WRITE behind it has not begun. -/
theorem test_release_before_next :
    after (.assertionEdge 7)
      (((master (mapped up)).setLine 7 { AttnLine.reset with
          mode := .edge, route := .wait, waiters := [{ chan := 0, timeout := none }] }).setChan 0
        (runCh { script0 with
          current := some (stepWith .waiting [(0, 12), (2, 7)]),
          window := [.record 0x3010 (BitVec.ofNat 128 (fields [(0, 1), (2, 0xFC)]))] }))
      (fun t => t.arb.inflight.isNone && (t.presentedOf 0).isNone && (t.chan 0).script.any fun sc => sc.executed == 1) = true := by
  decide +kernel

/-- R64, R161: a break that comes next acts on the script behind the released AWAIT, before its next step has done anything. -/
theorem test_release_then_break :
    after .lockTimerExpiry
      (owned (fun o => { o with lockTimer := some 5 })
        (lockHeld (inStep (stepWith .fresh [(0, 1), (2, 0xFC)]) (master (mapped up)))))
      (fun t => t.arb.lock.isNone && t.arb.inflight.isNone && (t.chan 0).script.any fun sc =>
        sc.ending == some { status := .lockBroken, ordinal := sc.ordinals, detail := 0 }) = true := by
  decide +kernel

/-- R136: a write that ended DONE in a shadowed window gives its entry the value driven. -/
theorem test_write_recorded :
    after (.strobeEnd 0)
      (flying .write (some 0x77) shaded 1 0x1FF 1 (inStep (stepWith .write [(0, 1), (2, 0x1FF)]) (master (mapped up))))
      (fun t => t.shadow == [{ addr := 0x1FF, value := 0x77, index := 1 }]) = true := by
  decide +kernel

/-- R158: a consumer that stays bars the consumers behind it, and not a waiter that does not consume. -/
theorem test_examination :
    syncWalk 2 false
      [{ chan := 0, threshold := 3, consume := true, timeout := none },
       { chan := 1, threshold := 1, consume := true, timeout := none },
       { chan := 2, threshold := 2, consume := false, timeout := none }] =
      (2, [{ chan := 0, threshold := 3, consume := true, timeout := none },
           { chan := 1, threshold := 1, consume := true, timeout := none }], [2]) := by
  decide +kernel

/-- R8, R13: an END at depth 0 ends the script with OK, and its completion write starts at slot 0 with phase 1. -/
theorem test_end :
    after (.endStep 0) (inStep (stepWith .fresh [(0, 8)]) up) (fun t =>
      match (t.chan 0).data with
      | some (.completion w) => w.addr == 0x2000 && w.bytes == [5, 0, 0, 0x80, 0, 0, 1, 0, 0, 0, 0, 0, 0, 0, 0, 0]
      | _ => false) = true := by
  decide +kernel

/-- R170, R172: an SQ tail of the ring's size faults the channel with SQ_TAIL_INVALID. -/
theorem test_tail_invalid :
    after (.channelQueueIndexWrite 1 4) (up.setChan 1 idleCh) (fun t =>
      (t.chan 1).st == .faulted && t.events.holding ==
        [{ kind := .channelFault, source := 1, occurrences := 1, stamp := 0, detail := 1 }]) = true := by
  decide +kernel

/-- R107, R108: REQ at an open port gives the bus to the peer. -/
theorem test_req_grants : after .reqRise (master up) (fun t => t.own.state == .granted) = true := by decide +kernel

/-- R149: an edge on a line with a waiter and none pending is consumed by the waiter, whose ATTEND completes. -/
theorem test_edge_releases :
    after (.assertionEdge 7)
      ((inStep (stepWith .waiting [(0, 12), (2, 7)]) up).setLine 7
        { AttnLine.reset with mode := .edge, route := .wait, waiters := [{ chan := 0, timeout := none }] })
      (fun t => (t.step? 0).isNone && (t.line 7).count == 0 && (t.line 7).waiters.isEmpty) = true := by
  decide +kernel

/-- R130: a reset observed on BRST ends the access with RESET_DURING_ACCESS and empties the store. -/
theorem test_observed_reset :
    after .observedReset
      (flying .read none plain 0 0xFE 1 (inStep (stepWith .read [(0, 2), (2, 0xFE)]) (master (mapped up))))
      (fun t => t.shadow.isEmpty && t.arb.inflight.isNone && (match (t.chan 0).script with
        | some sc => sc.ending == some { status := .resetDuringAccess, ordinal := 1, detail := 0xFE }
        | none => false)) = true := by
  decide +kernel

/-- Channel 0 as it waits so in its step. -/
def waitingFor (w : WaitReason) (st : Step) (s : State) : State :=
  s.setChan 0 { runCh { script0 with current := some st } with wait := w, timer := some 5 }

/-- R2, R206: the wait of a DELAY has ended as the bridge reset starts. -/
theorem test_reset_ends_waits :
    after (.bridgeReset false) (waitingFor .timer (stepWith .waiting [(0, 9), (6, 9)]) up)
      (fun t => (t.chan 0).wait == .none && (t.chan 0).timer.isNone && !t.ready) = true := by
  decide +kernel

/-- R2, R207: ACCESS stands through the start of the reset, and ends with the access. -/
theorem test_reset_access_wait :
    let s := flying .read none plain 0 0xFE 1 (waitingFor .access (stepWith .read [(0, 2), (2, 0xFE)]) (master (mapped up)));
    after (.bridgeReset false) s (fun t => (t.chan 0).wait == .access) = true ∧
    after (.accessDone 0) { s with ready := false, cause := .hostRequest } (fun t => (t.chan 0).wait == .none) = true := by
  decide +kernel

/-! ## Hypotheses that can be met: the queue, the shared operations and the laws -/

theorem of_after {i : Instr} {s : State} {P : State → Prop} [DecidablePred P] (h : after i s (fun t => decide (P t)) = true) :
    ∃ t, exec i s = .next t ∧ P t := by
  unfold after at h
  split at h
  · exact ⟨_, by assumption, of_decide_eq_true h⟩
  · cases h
  · cases h

theorem quiescent_of {s : State}
    (h : ∀ c, (match s.step? c with
      | some st => (match st.progress with
        | .released _ => false
        | _ => true)
      | none => true) = true) : Quiescent s := by
  intro c st b hs hp
  have := h c
  rw [hs] at this
  simp only [hp] at this
  cases this

theorem taken_of {s : State} {r : Record32} {k : AdminCode}
    (h : s.admin.progress = .reading 0 ∧ s.ready = true ∧ AdminRecord.commonOk r k = true) : Taken s r k :=
  ⟨⟨0, h.1⟩, h.2⟩

theorem tableLaw_of {s : State}
    (h : ∀ i j, i ≠ j → (match s.region i, s.region j with
      | some g, some h => g.overlaps h
      | _, _ => false) = false) : TableLaw s := by
  intro i j g g' hij hi hj
  have := h i j hij
  rw [hi, hj] at this
  exact this

theorem test_witness_StepRunsFront :
    ({ up with pending := [.powerOn, .reqRise] } : State).pending = Instr.powerOn :: [.reqRise] := rfl

theorem test_witness_IdleStepTicks : up.pending = [] := rfl

theorem test_witness_QueueUntouched : ∃ t, exec (.enable true) up = .next t := exec_next _ _

/-- A step is current, with no data transfer in flight and with one. -/
theorem test_witness_ScriptEnds :
    (∃ sc r, ((inStep (stepWith .write [(0, 1)]) up).chan 0).script = some sc ∧
      ((inStep (stepWith .write [(0, 1)]) up).chan 0).rings = some r ∧
      ((inStep (stepWith .write [(0, 1)]) up).chan 0).data = none) ∧
    ∃ s : State, (∃ sc r, (s.chan 3).script = some sc ∧ (s.chan 3).rings = some r) ∧ (s.chan 3).data ≠ none :=
  ⟨⟨_, _, rfl, rfl, rfl⟩, up.setChan 3 { runCh script0 with data := some (.slotRead 0) }, ⟨_, _, rfl, rfl⟩, by decide +kernel⟩

def asked : State := owned (fun o => { o with req := true, cmd := some (.reset 1) }) (master up)
def commanded (cmd : PortCmd) (s : State) : State := owned (fun o => { o with cmd := some cmd, holdPassed := true }) s
def held : State := owned (fun o => { o with holdPassed := true }) (guest up)
def leaving : PortCmd := .setMode .isolated up.own.params

/-- A closed port; a lock with the holder's request and without; a pending REQ before every other claim; each port command also
where the hold limit has passed; the hold limit passed; a request of the last channel in the round; and no claim. -/
theorem test_witness_YieldPointOrder :
    (up.own.state ≠ .holding ∧ (lockHeld (master up)).arb.lock = some (0, .script) ∧ (lockHeld (master up)).presentedOf 0 = none ∧
      (asks 0 (lockHeld (master up))).presentedOf 0 ≠ none ∧ (asks 0 (lockHeld (master up))).own.state = .holding ∧
      (asks 0 (lockHeld (master up))).arb.inflight = none ∧ (asks 0 (lockHeld (master up))).own.brst = false) ∧
    (YieldPoint asked ∧ asked.own.mode = .master ∧ asked.own.req = true) ∧
    (YieldPoint (commanded leaving (guest up)) ∧ (commanded leaving (guest up)).own.mode = .guest ∧
      (commanded leaving (guest up)).own.holdPassed = true) ∧
    (YieldPoint (commanded (.reset 1000) (master up)) ∧ (commanded (.reset 1000) (master up)).own.req = false) ∧
    (YieldPoint held ∧ held.own.cmd = none ∧ held.own.mode = .guest ∧ held.own.holdPassed = true) ∧
    (YieldPoint (asks 3 (guest up)) ∧ (guest up).own.cmd = none ∧ (guest up).own.holdPassed = false ∧
      (asks 3 (guest up)).presentedOf ((asks 3 (guest up)).arb.lastServed + 1 + 3) ≠ none ∧
      ∀ j : Fin 4, j < 3 → (asks 3 (guest up)).presentedOf ((asks 3 (guest up)).arb.lastServed + 1 + j) = none) ∧
    (∀ c, (guest up).presentedOf c = none ∧ (master up).presentedOf c = none) ∧
    (let s := inStep (stepWith .fresh []) (guest up);
      YieldPoint s ∧ s.own.cmd = none ∧ s.own.holdPassed = false ∧ (∀ c, s.presentedOf c = none) ∧ stepDue s = true) ∧
    (YieldPoint (guest up) ∧ stepDue (guest up) = false) := by
  simp only [YieldPoint]
  decide +kernel

/-- Channel 0 in a step of this progress, its request presented. -/
def issues (p : Progress) (r : Request) : State := (inStep (stepWith p []) (master (mapped up))).setPresented 0 (some r)

theorem test_witness_IssueActs :
    (∀ p r, InStep (issues p r) 0 { script0 with current := some (stepWith p []) } (stepWith p []) ∧
      (issues p r).presentedOf 0 = some r ∧ (issues p r).own.mode ≠ .isolated) ∧
    (master up).presentedOf 3 = none ∧ (asks 0 (inStep (stepWith .write []) up)).own.mode = .isolated :=
  ⟨fun _ _ => ⟨⟨rfl, rfl, rfl⟩, rfl, nofun⟩, rfl, rfl⟩

/-- No window; a word at an odd address; a read of a WRITE_ONLY_SHADOWED window; a read and a write that pass; a write half served
from the store, its entry held and gone. -/
theorem test_witness_IssueActs_checks :
    lookup (mapped up).regions 0x200 = none ∧
    (lookup (mapped up).regions 0xFD = some (0, plain) ∧ plain.width = .w16 ∧ (0xFD : BusAddr).toNat % 2 = 1) ∧
    (lookup (mapped up).regions 0x1FF = some (1, shaded) ∧ shaded.rights = .writeOnlyShadowed ∧
      Purpose.read ∉ [Purpose.write, .modifyWrite, .blockOut]) ∧
    (lookup (mapped up).regions 0xFE = some (0, plain) ∧ plain.rights = .readWrite ∧ ¬ (0xFE : BusAddr).toNat % 2 = 1) ∧
    (request0 .write (some 0xFFFF) 0xFE).value = some 0xFFFF ∧ (request0 .modifyWrite none 0x1FF).value = none ∧
    (mapped up).shadow.find? (fun x => x.addr == 0x1FF) = some { addr := 0x1FF, value := 0x33, index := 1 } ∧
    ∀ e ∈ (mapped up).shadow, e.addr ≠ 0x100 := by
  decide +kernel

/-- Channel 0 in the write half of a MODIFY, not issued, holding its own lock. -/
def breaks (st : ChanState) : State :=
  let s := (inStep (stepWith (.modWrite none false) [(0, 3), (2, 0xFE)]) (owned (fun o => { o with breakDue := true }) (master up)))
  { s.setChan 0 { s.chan 0 with st := st } with arb := { s.arb with lock := some (0, .step) } }
def preempts (cmd : Option PortCmd) : State := owned (fun o => { o with gnt := false, preemptDue := true, cmd := cmd }) (guest up)

/-- The ATTEND of channel 1 released, channel 0 in a step that is not. -/
def freed : State :=
  (inStep (stepWith .fresh []) up).setChan 1 (runCh { script0 with current := some (stepWith (.released true) []) })

/-- A step that a delivery has started, and one that stands carried out; a released step, on no list, no other released; an access
in flight; a port at which nothing waits. -/
theorem test_witness_HappeningEnds :
    (InStep (inStep (stepWith .fresh []) up) 0 { script0 with current := some (stepWith .fresh []) } (stepWith .fresh []) ∧
      ((inStep (stepWith .fresh []) up).chan 0).st = .running) ∧
    (inStep (stepWith .write []) up).step? 0 = some (stepWith .write []) ∧
    (freed.step? 1 = some (stepWith (.released true) []) ∧
      OnNoList freed 1 ∧ ∀ d st b, d ≠ 1 → freed.step? d = some st → st.progress ≠ .released b) ∧
    (Quiescent (flying .read none plain 0 0xFE 1 up) ∧ (flying .read none plain 0 0xFE 1 up).arb.inflight.isSome = true) ∧
    (Quiescent (master up) ∧ NothingWaits (master up)) :=
  ⟨⟨⟨rfl, rfl, rfl⟩, rfl⟩, rfl, ⟨rfl, by simp only [OnNoList]; decide +kernel, fun d st b hd e => by
      have hd : d = 0 ∨ d = 2 ∨ d = 3 := (by decide : ∀ d : ChanId, d ≠ 1 → d = 0 ∨ d = 2 ∨ d = 3) d hd
      rcases hd with rfl | rfl | rfl
      · cases (e : some (stepWith .fresh []) = some st); exact nofun
      all_goals cases (e : none = some st)⟩,
    ⟨quiescent_of (by decide +kernel), rfl⟩, quiescent_of (by decide +kernel), rfl, rfl, rfl⟩

/-- A break void and one of each state of the holder, a preemption with a SET_PORT_MODE and without, a region change of each
kind. -/
theorem test_witness_HappeningEnds_waiting :
    (Quiescent (breaks .aborting) ∧ ∀ st ∈ [ChanState.running, .pausing, .paused, .aborting],
      (∀ k, ∀ w ∈ ((breaks st).counter k).waiters, w.chan ≠ 0) ∧ (∀ n, ∀ w ∈ ((breaks st).line n).waiters, w.chan ≠ 0) ∧
      (breaks st).arb.inflight = none ∧ (breaks st).own.breakDue = true ∧
      (breaks st).arb.lock = some (0, .step) ∧ ((breaks st).chan 0).st = st ∧
      ((breaks st).chan 0).script.any (fun sc => sc.ending.isNone) = true) ∧
    ((owned (fun o => { o with breakDue := true }) (master up)).arb.lock = none ∧
      Quiescent (owned (fun o => { o with breakDue := true }) (master up))) ∧
    (Quiescent (preempts none) ∧ (preempts none).own.preemptDue = true ∧ (preempts none).own.mode = .guest ∧
      (preempts none).own.cmd = none ∧ (preempts (some leaving)).own.cmd = some leaving ∧
      ∀ c, (preempts (some leaving)).presentedOf c = none) ∧
    (∀ w, Quiescent (changes w) ∧ (changes w).admin.progress = .waiting 1 .region ∧ (changes w).regionWait = some w ∧
      (changes w).own.breakDue = false) :=
  ⟨⟨quiescent_of (by decide +kernel), by decide +kernel⟩, ⟨rfl, quiescent_of (by decide +kernel)⟩,
    ⟨quiescent_of (by decide +kernel), by decide +kernel⟩, fun w => ⟨fun c st b h => absurd h (by
      have : (changes w).step? c = up.step? c := rfl
      rw [this]; fin_cases c <;> exact nofun), rfl, rfl, rfl⟩⟩

/-- A region change about to be taken over a table and a store that hold something. -/
def lawful : State :=
  { mapped (taking up) with pending := [.setRegion (adm [(0, 7), (4, 2), (5, 8), (8, 0x200), (12, 1), (17, 1), (20, 1)])] }

theorem test_witness_StoreInvKept : StoreInv lawful ∧ ∃ t, step lawful = .next t := by
  refine ⟨⟨tableLaw_of (by decide +kernel), ⟨by decide +kernel, by decide +kernel, ?_⟩, ?_, ?_⟩, step_next _⟩
  · intro e he
    have : e = { addr := 0x1FF, value := 0x33, index := 1 } := List.mem_singleton.mp he
    subst this
    exact ⟨shaded, by decide +kernel, rfl, by decide +kernel⟩
  · intro f hf; exact absurd (hf : none = some f) nofun
  · exact ⟨fun h => absurd h (by decide +kernel), fun i g h => absurd h (by
      rw [show lawful.regionWait = none from rfl]; exact nofun)⟩

theorem test_witness_PortInvKept :
    PortInv (flying .read none plain 0 0xFE 1 (master up)) ∧
      ∃ t, step (flying .read none plain 0 0xFE 1 (master up)) = .next t := by
  refine ⟨⟨fun _ => rfl, nofun, rfl, nofun, fun w h => ?_, nofun⟩, step_next _⟩
  exact absurd h (by rw [show (flying .read none plain 0 0xFE 1 (master up)).own.cmd = none from rfl]; exact nofun)

/-- A channel that owes a completion, its ring full but for its reservation. -/
def owing : State := up.setChan 0 { runCh script0 with rings := some { rings4 with unconsumed := 3 } }

theorem test_witness_RingInvKept : RingInv owing ∧ ∃ t, step owing = .next t := by
  refine ⟨fun c => ⟨fun r h => ?_, ?_⟩, step_next _⟩
  · have key : ∀ c : ChanId, (match (owing.chan c).rings with
        | some r => r.unconsumed + (if (owing.chan c).reserved then 1 else 0) ≤ r.cqSize
        | none => True) := by
      intro c
      fin_cases c <;> simp [owing, up, State.chan, State.setChan, State.reset, runCh, idleCh, rings4, Channel.reset,
        RingPair.configured]
    have := key c
    rw [h] at this
    exact this
  · fin_cases c
    · exact fun _ => rfl
    all_goals
      rintro ⟨-, h | ⟨a, h⟩ | ⟨a, h⟩⟩
      · exact absurd h (by decide +kernel)
      · exact absurd (h : none = some _) nofun
      · exact absurd (h : none = some _) nofun

theorem test_witness_CountInvKept :
    CountInv (up.setCounter 0 { value := 65535, waiters := [] }) ∧
      ∃ t, step (up.setCounter 0 { value := 65535, waiters := [] }) = .next t :=
  ⟨⟨by decide +kernel, by decide +kernel⟩, step_next _⟩

def deep : State := up.setChan 0 (runCh { script0 with links := [0, 16, 32, 48, 64, 80] })

theorem test_witness_LinkInvKept : LinkInv deep ∧ ∃ t, step deep = .next t := by
  refine ⟨fun c sc h => ?_, step_next _⟩
  fin_cases c
  · cases (h : some _ = some sc); exact ⟨by decide, nofun⟩
  all_goals exact absurd (h : none = some _) nofun

def holds2 : State :=
  { up with events := { EventUnit.reset with
    holding := [{ kind := .attention, source := 0, occurrences := 65535, stamp := 0, detail := 0 },
                { kind := .attention, source := 7, occurrences := 1, stamp := 0, detail := 0 }] } }

theorem test_witness_HoldingInvKept : HoldingInv holds2 ∧ ∃ t, step holds2 = .next t := by
  refine ⟨?_, step_next _⟩
  unfold HoldingInv
  decide +kernel

/-! ## Hypotheses that can be met: whole-machine rules -/

def setRegion2 : Record32 := adm [(0, 7), (4, 2), (5, 8), (8, 0x200), (12, 1), (17, 1), (20, 1)]

/-- A CLEAR_REGION waits for the access in flight of its entry. -/
def clearWaits : State :=
  { flying .read none plain 0 0 2 (master (mapped up)) with
    regionWait := some (.clear 0), admin := { Admin.reset with progress := .waiting 1 .region } }

theorem test_witness_TableChangesOnly :
    (∃ t, exec (.setRegion setRegion2) (taking (mapped up)) = .next t ∧ t.regions ≠ (taking (mapped up)).regions) ∧
      ∃ t, exec (.accessDone 0) clearWaits = .next t ∧ t.regions ≠ clearWaits.regions :=
  ⟨of_after (by decide +kernel), of_after (by decide +kernel)⟩

theorem test_witness_ReadyAndBaseChangeOnly :
    (∃ t, exec .powerOnInitialisationEnd State.reset = .next t ∧ t.ready ≠ State.reset.ready) ∧
      ∃ t, exec (.adminBase (.full 0x1000)) up = .next t ∧ t.admin.ring.sqBase ≠ up.admin.ring.sqBase :=
  ⟨of_after (by decide +kernel), of_after (by decide +kernel)⟩

theorem test_witness_WritesIgnoredNotReady : State.reset.ready = false := rfl

/-! ## Hypotheses that can be met: admin commands -/

/-- A reserved byte, and a snapshot one byte past the highest host address; an unknown code needs the read alone. -/
theorem test_witness_CommonChecksRefuse :
    ((∃ a, (taking up).admin.progress = .reading a) ∧ (taking up).ready = true) ∧
    ((AdminCode.startChannel, Instr.startChannel (adm [(0, 2), (31, 1)])) ∈ adminCommands (adm [(0, 2), (31, 1)]) ∧
      AdminRecord.commonOk (adm [(0, 2), (31, 1)]) .startChannel = false) ∧
    ((AdminCode.queryRegions, Instr.queryRegions (adm [(0, 9), (24, 2 ^ 64 - 255)])) ∈
        adminCommands (adm [(0, 9), (24, 2 ^ 64 - 255)]) ∧
      AdminRecord.commonOk (adm [(0, 9), (24, 2 ^ 64 - 255)]) .queryRegions = false) :=
  ⟨⟨⟨0, rfl⟩, rfl⟩, by decide +kernel, by decide +kernel⟩

/-- R144, R179: the reserved positions of a PURGE_SHADOW under each scope, and a snapshot at the last address it fits and one past
it. -/
theorem test_common_checks :
    (AdminRecord.commonOk (adm [(0, 13), (4, 1), (8, 1), (12, 2)]) .purgeShadow,
      AdminRecord.commonOk (adm [(0, 13), (12, 2)]) .purgeShadow, AdminRecord.commonOk (adm [(0, 13), (16, 1)]) .purgeShadow,
      AdminRecord.commonOk (adm [(0, 14), (24, 2 ^ 64 - 528)]) .queryShadow,
      AdminRecord.commonOk (adm [(0, 14), (24, 2 ^ 64 - 527)]) .queryShadow) = (true, false, false, true, false) := by
  decide +kernel

/-- Channel number 4, and a START_CHANNEL of a DISABLED channel. -/
theorem test_witness_ChannelCommandsRefuse :
    (Taken (taking up) (adm [(0, 3), (4, 4)]) .pauseChannel ∧
      (AdminCode.pauseChannel, Instr.pauseChannel (adm [(0, 3), (4, 4)])) ∈ channelCommands (adm [(0, 3), (4, 4)]) ∧
      3 < AdminRecord.param (adm [(0, 3), (4, 4)]) 4 1) ∧
    (Taken (taking up) (adm [(0, 2), (4, 3)]) .startChannel ∧
      (AdminCode.startChannel, Instr.startChannel (adm [(0, 2), (4, 3)])) ∈ channelCommands (adm [(0, 2), (4, 3)]) ∧
      Names (taking up) (adm [(0, 2), (4, 3)]) 3 .disabled ∧ accepts .startChannel .disabled = false) :=
  ⟨⟨taken_of (by decide +kernel), by decide +kernel⟩,
    ⟨taken_of (by decide +kernel), by decide +kernel, ⟨by decide +kernel, rfl⟩, rfl⟩⟩

/-- The bounds of the sizes, the addresses and the limit, and a limit one above its bound. -/
def configures (limit : Nat) : Record32 :=
  adm [(0, 1), (4, 3), (5, 1), (6, 4), (8, 1024), (12, limit), (16, 0), (24, 2 ^ 64 - 64)]

theorem test_witness_ConfigureChannelActs :
    (Taken (taking up) (configures 16777215) .configureChannel ∧ Names (taking up) (configures 16777215) 3 .disabled ∧
      (AdminRecord.host (configures 16777215) 16).toNat % 64 = 0 ∧
      (AdminRecord.host (configures 16777215) 24).toNat % 64 = 0 ∧
      (∃ j, 2 ≤ j ∧ j ≤ 10 ∧ AdminRecord.param (configures 16777215) 6 2 = 2 ^ j) ∧
      (∃ j, 2 ≤ j ∧ j ≤ 10 ∧ AdminRecord.param (configures 16777215) 8 2 = 2 ^ j) ∧
      AdminRecord.param (configures 16777215) 12 4 ≤ 16777215) ∧
    (Taken (taking up) (configures 16777216) .configureChannel ∧ Names (taking up) (configures 16777216) 3 .disabled ∧
      ¬ AdminRecord.param (configures 16777216) 12 4 ≤ 16777215) :=
  ⟨⟨taken_of (by decide +kernel), ⟨by decide +kernel, rfl⟩, by decide +kernel, by decide +kernel, ⟨2, by decide +kernel⟩,
      ⟨10, by decide +kernel⟩, by decide +kernel⟩,
    ⟨taken_of (by decide +kernel), ⟨by decide +kernel, rfl⟩, by decide +kernel⟩⟩

def onChan (ch : Channel) : State := taking (up.setChan 0 ch)
def onZero (code : Nat) (fs : List (Nat × Nat)) : Record32 := adm ((0, code) :: fs)
def ended0 : Script := { script0 with ending := some { status := .ok, ordinal := 0, detail := 0 } }

theorem test_witness_StartChannelActs :
    Taken (onChan idleCh) (onZero 2 []) .startChannel ∧
    (Names (onChan { idleCh with st := .stopped }) (onZero 2 []) 0 .stopped ∧
      ((onChan { idleCh with st := .stopped }).chan 0).rings = some rings4) ∧
    (Names (onChan { idleCh with st := .paused }) (onZero 2 []) 0 .paused ∧
      ((onChan { idleCh with st := .paused }).chan 0).script = none) ∧
    (Names (onChan { runCh ended0 with st := .paused }) (onZero 2 []) 0 .paused ∧
      ((onChan { runCh ended0 with st := .paused }).chan 0).script = some ended0 ∧ ended0.ending.isSome = true) :=
  ⟨taken_of (by decide +kernel), ⟨⟨by decide +kernel, rfl⟩, rfl⟩, ⟨⟨by decide +kernel, rfl⟩, rfl⟩,
    ⟨⟨by decide +kernel, rfl⟩, rfl, rfl⟩⟩

/-- Channel 0 PAUSED, at a point of its script. -/
def pausedAt (sc : Script) : State := onChan { runCh sc with st := .paused }
def midStep (p : Progress) (fs : List (Nat × Nat)) : Script := { script0 with current := some (stepWith p fs) }

/-- Before the first step, with a full window, inside a step, and between two tries of a POLL. -/
theorem test_witness_StartChannelResumes :
    (∀ sc, Taken (pausedAt sc) (onZero 2 []) .startChannel ∧ Names (pausedAt sc) (onZero 2 []) 0 .paused ∧
      ((pausedAt sc).chan 0).script = some sc ∧ ((pausedAt sc).chan 0).fetch = none) ∧
    (script0.ending = none ∧ script0.checked = true ∧ script0.current = none ∧ script0.window = []) ∧
    (∀ p fs, (midStep p fs).ending = none ∧ (midStep p fs).current = some (stepWith p fs) ∧
      (stepWith p fs).progress = p) ∧
    ∀ n v, Progress.readValue v ≠ .poll n v :=
  ⟨fun _ => ⟨⟨⟨0, rfl⟩, rfl, by decide +kernel⟩, ⟨by decide +kernel, rfl⟩, rfl, rfl⟩, ⟨rfl, rfl, rfl, rfl⟩,
    fun _ _ => ⟨rfl, rfl, rfl⟩, nofun⟩

/-- The action of a resumed step: in every progress; an address of no window, and one of the shadowed window, whose width asks for
no alignment, with its entry and without; a next unit at the last address and one past it; each wait. -/
theorem test_witness_StartChannelResumes_act :
    (∀ p fs, InStep (inStep (stepWith p fs) (mapped up)) 0 (midStep p fs) (stepWith p fs)) ∧
    (lookup (mapped up).regions 0x200 = none ∧ lookup (mapped up).regions 0x1FF = some (1, shaded) ∧
      shaded.rights = .writeOnlyShadowed ∧ shaded.width = .w8 ∧ (∀ x ∈ (mapped up).shadow, x.addr ≠ 0x100) ∧
      (mapped up).shadow.find? (fun x => x.addr == 0x1FF) = some { addr := 0x1FF, value := 0x33, index := 1 }) ∧
    (0xFFFFFF ≤ 0xFFFFFF ∧ 0xFFFFFF < 0x1000000) ∧
    (StepRecord.kind (stepWith .waiting [(0, 9)]).bits = some .delay ∧
      StepRecord.kind (stepWith .waiting [(0, 11)]).bits = some .await ∧
      StepRecord.kind (stepWith .waiting [(0, 12)]).bits = some .attend) :=
  ⟨fun _ _ => ⟨rfl, rfl, rfl⟩, by decide +kernel, by decide, by decide +kernel⟩

/-- A shadowed window of words, its diverted read at an odd address. -/
theorem test_witness_StartChannelResumes_odd :
    let t : Vector (Option Region) 16 := up.regions.set 2 (some { shaded with base := 0x200, width := .w16 })
    lookup t 0x2FF = some (2, { shaded with base := 0x200, width := .w16 }) ∧ (0x2FF : BusAddr).toNat % 2 = 1 := by
  decide +kernel

/-- Channel 0 reads, its access in flight. -/
def reads : State :=
  taking (flying .read none plain 0 0xFE 1 (inStep (stepWith .read [(0, 2), (2, 0xFE), (8, 0x4000)]) (master (mapped up))))

theorem onNoList_of {s : State} {c : ChanId}
    (h : (∀ k, ∀ w ∈ (s.counter k).waiters, w.chan ≠ c) ∧ ∀ n, ∀ w ∈ (s.line n).waiters, w.chan ≠ c) : OnNoList s c := h

/-- Channel 0 IDLE, PAUSED, reading with its access in flight, and RUNNING with nothing of it in flight. -/
theorem test_witness_PauseChannelActs :
    (Taken reads (onZero 3 []) .pauseChannel ∧ Names reads (onZero 3 []) 0 .running ∧ OnNoList reads 0 ∧
      reads.presentedOf 0 = none ∧ reads.accessOf 0 = true) ∧
    (Names (onChan idleCh) (onZero 3 []) 0 .idle ∧ Names (onChan { idleCh with st := .paused }) (onZero 3 []) 0 .paused) ∧
    (Names (onChan (runCh script0)) (onZero 3 []) 0 .running ∧ OnNoList (onChan (runCh script0)) 0 ∧
      (onChan (runCh script0)).presentedOf 0 = none ∧ quiet (onChan (runCh script0)) 0 = true) := by
  refine ⟨⟨taken_of (by decide +kernel), ?_⟩, ?_⟩ <;> simp only [Names, OnNoList] <;> decide +kernel

/-- The command taken and the channel stopping, its request withdrawn, as PAUSE_CHANNEL and ABORT_CHANNEL leave it. -/
def stopping (s : State) (st : ChanState) (a : Option Abort) (on : AdminWait) : State :=
  (((headPast s).setProgressA (.waiting 0 on)).setChan 0 { s.chan 0 with st := st, timer := none, abort := a }).setPresented 0 none

/-- A taken command finds channel 0 at its presented request, at its data transfer, on the list of counter 7 and on that of line
7. -/
def atRequest : State := taking (asks 0 (inStep (stepWith .write [(0, 1), (2, 0xFE)]) up))
def atTransfer : State := onChan { runCh script0 with data := some (.slotRead 0) }
def atCounter : State :=
  inStep (stepWith .waiting [(0, 11), (1, 4), (2, 7), (6, 3)]) ((taking up).setCounter 7
    { value := 0, waiters := [{ chan := 0, threshold := 3, consume := true, timeout := none }] })
def atLine : State :=
  inStep (stepWith .waiting [(0, 12), (2, 7)]) ((taking up).setLine 7
    { AttnLine.reset with mode := .edge, route := .wait, waiters := [{ chan := 0, timeout := none }] })

/-- After any change that leaves the waiter lists, the wait can be cut off in each of its forms. -/
theorem cutOff_forms (f : State → State) (h : ∀ s, (f s).sync = s.sync ∧ (f s).attn = s.attn) :
    CutOff (f atRequest) 0 (f atRequest) ∧ CutOff (f atTransfer) 0 (f atTransfer) ∧
    (∃ t, CutOff (f atCounter) 0 t) ∧ ∃ t, CutOff (f atLine) 0 t := by
  have counters (s : State) : (f s).counter = s.counter := by funext k; simp only [State.counter, (h s).1]
  have lines (s : State) : (f s).line = s.line := by funext n; simp only [State.line, (h s).2]
  refine ⟨.inl ⟨?_, rfl⟩, .inl ⟨?_, rfl⟩, 
    ⟨_, .inr (.inl ⟨7, { chan := 0, threshold := 3, consume := true, timeout := none }, ?_, ?_, ?_, rfl⟩)⟩,
    ⟨_, .inr (.inr ⟨7, ?_, ?_, rfl⟩)⟩⟩
  · simp only [OnNoList, counters, lines]; decide +kernel
  · simp only [OnNoList, counters, lines]; decide +kernel
  · rw [lines]; decide +kernel
  · rw [counters]; decide +kernel
  · rw [counters]; rfl
  · rw [counters]; decide +kernel
  · rw [lines]; decide +kernel

/-- So for a pause and for an abort alike. -/
theorem test_witness_CutOff (st : ChanState) (a : Option Abort) (on : AdminWait) :
    CutOff (stopping atRequest st a on) 0 (stopping atRequest st a on) ∧
    CutOff (stopping atTransfer st a on) 0 (stopping atTransfer st a on) ∧
    (∃ t, CutOff (stopping atCounter st a on) 0 t) ∧ ∃ t, CutOff (stopping atLine st a on) 0 t :=
  cutOff_forms (fun s => stopping s st a on) fun _ => ⟨rfl, rfl⟩

/-- And for the end of a script, with its request presented, the lock held and not. -/
theorem test_witness_ScriptEnds_cut :
    CutOff (atRequest.setPresented 0 none) 0 (atRequest.setPresented 0 none) ∧
    CutOff ((lockHeld atRequest).setPresented 0 none) 0 ((lockHeld atRequest).setPresented 0 none) ∧
    (∃ t, CutOff (atCounter.setPresented 0 none) 0 t) ∧ (∃ t, CutOff (atLine.setPresented 0 none) 0 t) ∧
    lockHeldBy (lockHeld atRequest) 0 = true ∧ lockHeldBy atRequest 0 = false :=
  ⟨(cutOff_forms (fun s => s.setPresented 0 none) fun _ => ⟨rfl, rfl⟩).1,
    (cutOff_forms (fun s => (lockHeld s).setPresented 0 none) fun _ => ⟨rfl, rfl⟩).1,
    (cutOff_forms (fun s => s.setPresented 0 none) fun _ => ⟨rfl, rfl⟩).2.2.1,
    (cutOff_forms (fun s => s.setPresented 0 none) fun _ => ⟨rfl, rfl⟩).2.2.2, by decide +kernel⟩

/-- In each of these forms the channel is RUNNING with its script unended, and the request presented. -/
theorem test_witness_CutOff_running :
    ∀ s ∈ [atRequest, atTransfer, atCounter, atLine], s.admin.progress = .reading 0 ∧ s.ready = true ∧
      (s.chan 0).st = .running ∧ (s.chan 0).script.any (fun sc => sc.ending.isNone) = true ∧
      (s.chan 0).rings = some rings4 ∧ AdminRecord.commonOk (onZero 3 []) .pauseChannel = true := by
  decide +kernel

/-- The channel in a step with its access in flight, PAUSED with nothing in flight, IDLE, and with its end fixed. -/
theorem test_witness_AbortChannelActs :
    (Taken reads (onZero 4 []) .abortChannel ∧ Unended reads 0 ∧ Unended (pausedAt script0) 0) ∧
    (Names reads (onZero 4 []) 0 .running ∧ AdminRecord.param (onZero 4 []) 5 1 = 0 ∧ OnNoList reads 0 ∧
      reads.presentedOf 0 = none ∧ reads.accessOf 0 = true) ∧
    (Names (pausedAt script0) (onZero 4 []) 0 .paused ∧ OnNoList (pausedAt script0) 0 ∧ quiet (pausedAt script0) 0 = true) ∧
    (Names (onChan idleCh) (onZero 4 []) 0 .idle ∧ ((onChan idleCh).chan 0).script = none) ∧
    (Names (onChan (runCh ended0)) (onZero 4 []) 0 .running ∧ ((onChan (runCh ended0)).chan 0).script = some ended0 ∧
      ended0.ending = some { status := .ok, ordinal := 0, detail := 0 }) := by
  refine ⟨⟨taken_of (by decide +kernel), ⟨_, rfl, rfl⟩, ⟨_, rfl, rfl⟩⟩, ?_⟩
  simp only [Names, OnNoList]
  decide +kernel

/-- The mode byte 2. -/
theorem test_witness_AbortChannelActs_mode :
    Taken (onChan idleCh) (onZero 4 [(5, 2)]) .abortChannel ∧ Names (onChan idleCh) (onZero 4 [(5, 2)]) 0 .idle ∧
      1 < AdminRecord.param (onZero 4 [(5, 2)]) 5 1 ∧ accepts .abortChannel .idle = true := by
  refine ⟨taken_of (by decide +kernel), ?_⟩
  simp only [Names]
  decide +kernel

def tail1 : RingPair := { rings4 with sqTail := 1 }
def tail1Full : RingPair := { tail1 with unconsumed := 4 }

/-- No active script: at the boundary, short of it with one slot free, and with none free. -/
theorem test_witness_AbortFlushActs :
    Taken (onChan idleCh) (onZero 4 [(5, 1)]) .abortChannel ∧
    (∀ r, ((onChan { idleCh with rings := some r }).chan 0).rings = some r ∧
      ((onChan { idleCh with rings := some r }).chan 0).script = none ∧
      (onChan { idleCh with rings := some r }).accessOf 0 = false ∧ ((onChan { idleCh with rings := some r }).chan 0).data = none) ∧
    Names (onChan idleCh) (onZero 4 [(5, 1)]) 0 .idle ∧ AdminRecord.param (onZero 4 [(5, 1)]) 5 1 = 1 ∧
    rings4.sqHead = rings4.sqTail ∧ tail1.sqHead ≠ tail1.sqTail ∧ { tail1 with unconsumed := 3 : RingPair }.unconsumed + 0 < 4 ∧
    tail1Full.sqHead ≠ tail1Full.sqTail ∧ tail1Full.cqSize ≤ tail1Full.unconsumed + 0 :=
  ⟨taken_of (by decide +kernel), fun _ => ⟨rfl, rfl, rfl, rfl⟩, ⟨by decide +kernel, rfl⟩, by decide +kernel⟩

/-- An active script: its access in flight, PAUSED with nothing in flight, and its end fixed. -/
theorem test_witness_AbortFlushActs_script :
    (Taken reads (onZero 4 [(5, 1)]) .abortChannel ∧ Unended reads 0 ∧ Unended (pausedAt script0) 0) ∧
    (Names reads (onZero 4 [(5, 1)]) 0 .running ∧ OnNoList reads 0 ∧ reads.presentedOf 0 = none ∧ reads.accessOf 0 = true ∧
      (reads.chan 0).rings = some rings4) ∧
    (Names (pausedAt script0) (onZero 4 [(5, 1)]) 0 .paused ∧ quiet (pausedAt script0) 0 = true) ∧
    (Names (onChan (runCh ended0)) (onZero 4 [(5, 1)]) 0 .running ∧
      ((onChan (runCh ended0)).chan 0).script = some ended0 ∧ ended0.ending.isSome = true) := by
  refine ⟨⟨taken_of (by decide +kernel), ⟨_, rfl, rfl⟩, ⟨_, rfl, rfl⟩⟩, ?_⟩
  simp only [Names, OnNoList]
  decide +kernel

theorem test_witness_ReleaseChannelActs :
    Taken (onChan { idleCh with st := .stopped }) (onZero 5 []) .releaseChannel ∧
    (Names (onChan { idleCh with st := .stopped }) (onZero 5 []) 0 .stopped ∧
      quiet (onChan { idleCh with st := .stopped }) 0 = true) ∧
    (Names (onChan { idleCh with st := .faulted, data := some (.slotRead 0) }) (onZero 5 []) 0 .faulted ∧
      quiet (onChan { idleCh with st := .faulted, data := some (.slotRead 0) }) 0 = false) := by
  refine ⟨taken_of (by decide +kernel), ?_⟩
  simp only [Names]
  decide +kernel

/-- The highest addresses the snapshots have, one that is no multiple of 16, and the last entry of a full store. -/
theorem test_witness_QueriesSnapshot :
    (Taken (taking up) (adm [(0, 6), (24, 2 ^ 64 - 16)]) .queryChannel ∧ Taken (taking up) (adm [(0, 6), (24, 8)]) .queryChannel) ∧
    (Taken (taking up) (adm [(0, 9), (24, 2 ^ 64 - 256)]) .queryRegions ∧ Taken (taking up) (adm [(0, 9), (24, 8)]) .queryRegions) ∧
    (Taken (taking up) (adm [(0, 14), (24, 2 ^ 64 - 528)]) .queryShadow ∧ Taken (taking up) (adm [(0, 14), (24, 8)]) .queryShadow) ∧
    (Names (taking up) (adm [(0, 6), (24, 2 ^ 64 - 16)]) 0 .disabled ∧ Names (taking up) (adm [(0, 6), (24, 8)]) 0 .disabled ∧
      ∀ p ∈ [(6, 2 ^ 64 - 16), (9, 2 ^ 64 - 256), (14, 2 ^ 64 - 528)],
        (AdminRecord.host (adm [(0, p.1), (24, p.2)]) 24).toNat % 16 = 0) ∧
    (AdminRecord.host (adm [(0, 14), (24, 8)]) 24).toNat % 16 ≠ 0 ∧
    (List.replicate 64 ({ addr := 0x1FF, value := 0, index := 1 } : ShadowEntry))[63]? =
      some { addr := 0x1FF, value := 0, index := 1 } := by
  simp only [Names]
  exact ⟨⟨taken_of (by decide +kernel), taken_of (by decide +kernel)⟩, ⟨taken_of (by decide +kernel), taken_of (by decide +kernel)⟩,
    ⟨taken_of (by decide +kernel), taken_of (by decide +kernel)⟩, by decide +kernel⟩

/-! ## Hypotheses that can be met: the units' commands -/

theorem apart_of {s : State} {i : RegionId} {g : Region}
    (h : ∀ j, j ≠ i → (match s.region j with
      | some h => h.overlaps g
      | none => false) = false) : ∀ j h, j ≠ i → s.region j = some h → h.overlaps g = false := by
  intro j g' hj hr
  have := h j hj
  rw [hr] at this
  exact this

def bytes1 (base : BusAddr) : Region :=
  { base := base, pages := 1, width := .w8, rights := .readWrite, setup := 0, strobe := 1, hold := 0, readyMode := .sampled,
    timeout := 1, retries := 0 }

def setRegion (i base : Nat) : Record32 := adm [(0, 7), (4, i), (5, 8), (8, base), (12, 1), (17, 1), (20, 1)]

/-- The last page of the backplane with nothing in flight, entry 0 with its access in flight, and a window over entry 1. -/
theorem test_witness_SetRegionActs :
    (Taken (taking (mapped up)) (setRegion 15 0xFFFF00) .setRegion ∧ AdminRecord.param (setRegion 15 0xFFFF00) 4 1 = 15 ∧
      regionOf (setRegion 15 0xFFFF00) = some (bytes1 0xFFFF00) ∧
      (∀ j h, j ≠ 15 → (taking (mapped up)).region j = some h → h.overlaps (bytes1 0xFFFF00) = false) ∧
      ∀ f, (taking (mapped up)).arb.inflight = some f → f.index ≠ 15) ∧
    (Taken reads (setRegion 0 0) .setRegion ∧ AdminRecord.param (setRegion 0 0) 4 1 = 0 ∧
      regionOf (setRegion 0 0) = some (bytes1 0) ∧
      (∀ j h, j ≠ 0 → reads.region j = some h → h.overlaps (bytes1 0) = false) ∧
      ∃ f, reads.arb.inflight = some f ∧ f.index = 0) ∧
    (Taken (taking (mapped up)) (setRegion 2 0x100) .setRegion ∧ AdminRecord.param (setRegion 2 0x100) 4 1 = 2 ∧
      regionOf (setRegion 2 0x100) = some (bytes1 0x100) ∧ (taking (mapped up)).region 1 = some shaded ∧
      shaded.overlaps (bytes1 0x100) = true ∧
      ∀ k h', k ≠ 2 → k < 1 → (taking (mapped up)).region k = some h' → h'.overlaps (bytes1 0x100) = false) := by
  refine ⟨⟨taken_of (by decide +kernel), by decide +kernel, by decide +kernel, apart_of (by decide +kernel), fun f h => ?_⟩,
    ⟨taken_of (by decide +kernel), by decide +kernel, by decide +kernel, apart_of (by decide +kernel), ⟨_, rfl, rfl⟩⟩,
    ⟨taken_of (by decide +kernel), by decide +kernel, by decide +kernel, by decide +kernel, by decide +kernel, ?_⟩⟩
  · exact absurd (h : none = some f) nofun
  · intro k h' _ hk hr
    have hk0 : k = 0 := Fin.ext (Nat.lt_one_iff.mp hk)
    subst hk0
    have : some plain = some h' := hr
    cases this
    decide +kernel

/-- A base that is no multiple of 256, and index 16. -/
theorem test_witness_SetRegionFields :
    (Taken (taking up) (setRegion 0 0x80) .setRegion ∧ regionOf (setRegion 0 0x80) = none) ∧
    (Taken (taking up) (setRegion 16 0) .setRegion ∧ 15 < AdminRecord.param (setRegion 16 0) 4 1) ∧
    regionOf (setRegion 15 0xFFFF00) = some (bytes1 0xFFFF00) :=
  ⟨⟨taken_of (by decide +kernel), by decide +kernel⟩, ⟨taken_of (by decide +kernel), by decide +kernel⟩, by decide +kernel⟩

theorem test_witness_ClearRegionActs :
    (Taken (taking (mapped up)) (onZero 8 [(4, 15)]) .clearRegion ∧ AdminRecord.param (onZero 8 [(4, 15)]) 4 1 = 15 ∧
      (taking (mapped up)).region 15 = none) ∧
    (Taken (taking (mapped up)) (onZero 8 [(4, 1)]) .clearRegion ∧ AdminRecord.param (onZero 8 [(4, 1)]) 4 1 = 1 ∧
      (taking (mapped up)).region 1 = some shaded ∧ (taking (mapped up)).arb.inflight = none) ∧
    (Taken reads (onZero 8 []) .clearRegion ∧ AdminRecord.param (onZero 8 []) 4 1 = 0 ∧ reads.region 0 = some plain ∧
      ∃ f, reads.arb.inflight = some f ∧ f.index = 0) ∧
    (Taken (taking up) (onZero 8 [(4, 16)]) .clearRegion ∧ 15 < AdminRecord.param (onZero 8 [(4, 16)]) 4 1) :=
  ⟨⟨taken_of (by decide +kernel), by decide +kernel, by decide +kernel⟩,
    ⟨taken_of (by decide +kernel), by decide +kernel, by decide +kernel, rfl⟩,
    ⟨taken_of (by decide +kernel), by decide +kernel, by decide +kernel, ⟨_, rfl, rfl⟩⟩,
    ⟨taken_of (by decide +kernel), by decide +kernel⟩⟩

/-- Every parameter at its upper bound. -/
def portMode (m turn : Nat) : Record32 :=
  adm [(0, 10), (4, m), (5, turn), (8, 16777215), (12, 65535), (16, 16777215), (20, 16777215)]

theorem test_witness_SetPortModeSame :
    (Taken (taking up) (portMode 0 15) .setPortMode ∧ AdminRecord.param (portMode 0 15) 4 1 = (taking up).own.mode.code ∧
      AdminRecord.param (portMode 0 15) 5 1 ≤ 15 ∧ AdminRecord.param (portMode 0 15) 8 4 ≤ 16777215 ∧
      AdminRecord.param (portMode 0 15) 12 4 ≤ 65535 ∧ AdminRecord.param (portMode 0 15) 16 4 ≤ 16777215 ∧
      AdminRecord.param (portMode 0 15) 20 4 ≤ 16777215) ∧
    (Taken (taking up) (portMode 0 16) .setPortMode ∧ ¬ AdminRecord.param (portMode 0 16) 5 1 ≤ 15) ∧
    (Taken (taking up) (portMode 3 0) .setPortMode ∧ ¬ AdminRecord.param (portMode 3 0) 4 1 ≤ 2) :=
  ⟨⟨taken_of (by decide +kernel), by decide +kernel⟩, ⟨taken_of (by decide +kernel), by decide +kernel⟩,
    ⟨taken_of (by decide +kernel), by decide +kernel⟩⟩

def granted : State := taking (owned (fun o => { o with state := .granted }) (master up))

/-- A port that waits for its SET_PORT_MODE in each mode, with turnaround 0 and above, a request presented or none. -/
theorem test_witness_SetPortModeChanges :
    let waits (s : State) : State := { s with admin := { s.admin with progress := .waiting 1 .portMode } }
    (∀ s, (waits s).admin.progress = .waiting 1 .portMode) ∧
    ((waits up).own.mode = .isolated ∧ (waits (master up)).own.mode ≠ .isolated ∧ (waits (guest up)).own.mode ≠ .isolated) ∧
    (asks 3 (waits (master up))).presentedOf 3 ≠ none ∧
    (up.own.params.turnaround = 0 ∧ { up.own.params with turnaround := 15 : PortParams }.turnaround ≠ 0) :=
  ⟨fun _ => rfl, ⟨rfl, nofun, nofun⟩, by decide +kernel, by decide +kernel⟩

def inGuest (st : OwnState) : State := owned (fun o => { o with state := st }) (guest up)
def inMaster (st : OwnState) : State := owned (fun o => { o with state := st }) (master up)

/-- The record at the bounds of its fields; a change at once from ISOLATED and from a GUEST's RELEASED and REQUESTING; at a yield
point in either mode; and one that waits. -/
theorem test_witness_SetPortModeChanges_taken :
    (∀ m ∈ [PortMode.isolated, .master, .guest], AdminRecord.param (portMode m.code 15) 4 1 = m.code ∧
      AdminRecord.commonOk (portMode m.code 15) .setPortMode = true) ∧
    (AdminRecord.param (portMode 1 15) 5 1 = 15 ∧ AdminRecord.param (portMode 1 15) 8 4 = 16777215 ∧
      AdminRecord.param (portMode 1 15) 12 4 = 65535 ∧ AdminRecord.param (portMode 1 15) 16 4 = 16777215 ∧
      AdminRecord.param (portMode 1 15) 20 4 = 16777215) ∧
    (∀ s, (taking s).admin.progress = .reading 0 ∧ (taking s).own = s.own) ∧
    (∀ st, (inGuest st).own.mode = .guest ∧ (inGuest st).own.state = st ∧ (inMaster st).own.mode = .master ∧
      (inMaster st).own.state = st) ∧
    (Quiescent (taking up) ∧ NothingWaits (taking up) ∧ (taking up).own.mode = .isolated ∧
      ∀ c, (taking up).presentedOf c = none) ∧
    (Quiescent (taking (master up)) ∧ YieldPoint (taking (master up)) ∧ NothingWaits (taking (master up)) ∧
      (master up).own.req = false) ∧
    (Quiescent (taking (guest up)) ∧ YieldPoint (taking (guest up))) :=
  ⟨by decide +kernel, by decide +kernel, fun _ => ⟨rfl, rfl⟩, fun _ => ⟨rfl, rfl, rfl, rfl⟩,
    ⟨quiescent_of (by decide +kernel), ⟨rfl, rfl, rfl⟩, by decide +kernel⟩,
    ⟨quiescent_of (by decide +kernel), by simp only [YieldPoint, NothingWaits]; decide +kernel⟩,
    quiescent_of (by decide +kernel), by simp only [YieldPoint]; decide +kernel⟩

def pulse (width limit : Nat) : Record32 := adm [(0, 11), (4, width), (8, limit)]

/-- A width of 1001, a mode that refuses, a yield point, and a port that is GRANTED; the bounds of the width and the limit. -/
theorem test_witness_BackplaneResetActs :
    (Taken (taking up) (pulse 1001 0) .backplaneReset ∧ ¬ AdminRecord.param (pulse 1001 0) 4 2 ≤ 1000) ∧
    (Taken (taking up) (pulse 1 16777215) .backplaneReset ∧ AdminRecord.param (pulse 1 16777215) 4 2 = 1 ∧
      AdminRecord.param (pulse 1 16777215) 8 4 ≤ 16777215 ∧ (taking up).own.mode ≠ .master) ∧
    (Taken (taking (master up)) (pulse 1000 0) .backplaneReset ∧ AdminRecord.param (pulse 1000 0) 4 2 = 1000 ∧
      AdminRecord.param (pulse 1000 0) 8 4 = 0 ∧ (taking (master up)).own.mode = .master) ∧
    (Quiescent (taking (master up)) ∧ YieldPoint (taking (master up)) ∧ NothingWaits (taking (master up)) ∧
      (taking (master up)).own.req = false) ∧
    (Taken granted (pulse 1000 1) .backplaneReset ∧ granted.own.mode = .master ∧ granted.own.state ≠ .holding ∧
      AdminRecord.param (pulse 1000 1) 8 4 = 1) ∧
    Quiescent granted ∧ NothingWaits granted :=
  ⟨⟨taken_of (by decide +kernel), by decide +kernel⟩, ⟨taken_of (by decide +kernel), by decide +kernel⟩,
    ⟨taken_of (by decide +kernel), by decide +kernel⟩,
    ⟨quiescent_of (by decide +kernel), by simp only [YieldPoint, NothingWaits]; decide +kernel⟩,
    ⟨taken_of (by decide +kernel), by decide +kernel⟩, quiescent_of (by decide +kernel), rfl, rfl, rfl⟩

def seed (a v : Nat) : Record32 := adm [(0, 12), (8, a), (12, v)]

def fullStore : State :=
  { mapped up with shadow := List.replicate 64 { addr := 0x1FF, value := 0, index := 1 } }

/-- A value above 0xFF in an 8-bit window, the entry held, a new entry, and a full store. -/
theorem test_witness_SeedShadowActs :
    (Taken (taking (mapped up)) (seed 0x1FF 0x100) .seedShadow ∧ AdminRecord.param (seed 0x1FF 0x100) 12 4 ≤ 0xFFFF ∧
      lookup (taking (mapped up)).regions 0x1FF = some (1, shaded) ∧ ¬ (0x100 : Value).toNat ≤ 0xFF) ∧
    (Taken (taking (mapped up)) (seed 0x1FF 0xFF) .seedShadow ∧ AdminRecord.param (seed 0x1FF 0xFF) 8 4 = 0x1FF ∧
      shaded.rights = .writeOnlyShadowed ∧ shaded.width = .w8 ∧ ∃ e ∈ (taking (mapped up)).shadow, e.addr = 0x1FF) ∧
    (Taken (taking (mapped up)) (seed 0x100 0) .seedShadow ∧
      lookup (taking (mapped up)).regions 0x100 = some (1, shaded) ∧
      (∀ e ∈ (taking (mapped up)).shadow, e.addr ≠ 0x100) ∧ (taking (mapped up)).shadow.length < 64) ∧
    (Taken (taking fullStore) (seed 0x100 0) .seedShadow ∧ lookup (taking fullStore).regions 0x100 = some (1, shaded) ∧
      (∀ e ∈ (taking fullStore).shadow, e.addr ≠ 0x100) ∧ 64 ≤ (taking fullStore).shadow.length) ∧
    (Taken (taking (mapped up)) (seed 0x200 0) .seedShadow ∧ lookup (taking (mapped up)).regions 0x200 = none) ∧
    (Taken (taking (mapped up)) (seed 0x1000000 0) .seedShadow ∧ 0xFFFFFF < AdminRecord.param (seed 0x1000000 0) 8 4) :=
  ⟨⟨taken_of (by decide +kernel), by decide +kernel⟩, ⟨taken_of (by decide +kernel), by decide +kernel⟩,
    ⟨taken_of (by decide +kernel), by decide +kernel⟩, ⟨taken_of (by decide +kernel), by decide +kernel⟩,
    ⟨taken_of (by decide +kernel), by decide +kernel⟩, ⟨taken_of (by decide +kernel), by decide +kernel⟩⟩

def purge (scope first last : Nat) : Record32 := adm [(0, 13), (4, scope), (8, first), (12, last)]

theorem test_witness_PurgeShadowActs :
    (Taken (taking up) (purge 0 0 0) .purgeShadow ∧ AdminRecord.param (purge 0 0 0) 4 1 = 0) ∧
    (Taken (taking up) (purge 1 0xFFFFFF 0xFFFFFF) .purgeShadow ∧ AdminRecord.param (purge 1 0xFFFFFF 0xFFFFFF) 4 1 = 1 ∧
      AdminRecord.param (purge 1 0xFFFFFF 0xFFFFFF) 8 4 ≤ AdminRecord.param (purge 1 0xFFFFFF 0xFFFFFF) 12 4 ∧
      AdminRecord.param (purge 1 0xFFFFFF 0xFFFFFF) 12 4 ≤ 0xFFFFFF) ∧
    (Taken (taking up) (purge 1 0 0x1000000) .purgeShadow ∧ 0xFFFFFF < AdminRecord.param (purge 1 0 0x1000000) 12 4) ∧
    (Taken (taking up) (purge 2 0 0) .purgeShadow ∧ 1 < AdminRecord.param (purge 2 0 0) 4 1) :=
  ⟨⟨taken_of (by decide +kernel), by decide +kernel⟩, ⟨taken_of (by decide +kernel), by decide +kernel⟩,
    ⟨taken_of (by decide +kernel), by decide +kernel⟩, ⟨taken_of (by decide +kernel), by decide +kernel⟩⟩

def attention (n m r : Nat) : Record32 := adm [(0, 15), (4, n), (5, m), (6, r)]

/-- Line 8, and LEVEL with EVENT; then line 7 to EDGE with WAIT, and to LEVEL with WAIT while released. -/
theorem test_witness_SetAttentionActs :
    (Taken (taking up) (attention 8 0 0) .setAttention ∧ ¬ AdminRecord.param (attention 8 0 0) 4 1 ≤ 7) ∧
    (Taken (taking up) (attention 7 2 0) .setAttention ∧ AdminRecord.param (attention 7 2 0) 5 1 = 2 ∧
      AdminRecord.param (attention 7 2 0) 6 1 = 0) ∧
    (Taken (taking up) (attention 7 1 1) .setAttention ∧ AdminRecord.param (attention 7 1 1) 4 1 = 7 ∧
      attnModeOf (AdminRecord.param (attention 7 1 1) 5 1) = some .edge ∧
      attnRouteOf (AdminRecord.param (attention 7 1 1) 6 1) = some .wait) ∧
    (Taken (taking up) (attention 7 2 1) .setAttention ∧ AdminRecord.param (attention 7 2 1) 4 1 = 7 ∧
      attnModeOf (AdminRecord.param (attention 7 2 1) 5 1) = some .level ∧
      attnRouteOf (AdminRecord.param (attention 7 2 1) 6 1) = some .wait ∧ ((taking up).line 7).level = false) ∧
    (Taken (taking up) (attention 7 1 0) .setAttention ∧
      attnRouteOf (AdminRecord.param (attention 7 1 0) 6 1) = some .event) ∧
    (Taken (taking (up.setLine 7 { AttnLine.reset with level := true })) (attention 7 2 1) .setAttention ∧
      ((taking (up.setLine 7 { AttnLine.reset with level := true })).line 7).level = true) :=
  ⟨⟨taken_of (by decide +kernel), by decide +kernel⟩, ⟨taken_of (by decide +kernel), by decide +kernel⟩,
    ⟨taken_of (by decide +kernel), by decide +kernel⟩, ⟨taken_of (by decide +kernel), by decide +kernel⟩,
    ⟨taken_of (by decide +kernel), by decide +kernel⟩, ⟨taken_of (by decide +kernel), by decide +kernel⟩⟩

def sync (k v : Nat) : Record32 := adm [(0, 16), (4, k), (8, v)]

theorem test_witness_SetSyncActs :
    (Taken (taking up) (sync 7 65535) .setSync ∧ AdminRecord.param (sync 7 65535) 4 1 = 7 ∧
      AdminRecord.param (sync 7 65535) 8 4 ≤ 65535) ∧
    (Taken (taking up) (sync 7 65536) .setSync ∧ AdminRecord.param (sync 7 65536) 4 1 = 7 ∧
      65535 < AdminRecord.param (sync 7 65536) 8 4) ∧
    (Taken (taking up) (sync 8 0) .setSync ∧ 7 < AdminRecord.param (sync 8 0) 4 1) :=
  ⟨⟨taken_of (by decide +kernel), by decide +kernel⟩,
    ⟨taken_of (by decide +kernel), by decide +kernel⟩, ⟨taken_of (by decide +kernel), by decide +kernel⟩⟩

theorem test_witness_ExaminationLaw :
    (syncWalk 2 false [{ chan := 1, threshold := 3, consume := true, timeout := none }]).2.1.find? (fun w => w.consume) =
      some { chan := 1, threshold := 3, consume := true, timeout := none } := by
  decide +kernel

def eventRing (size base : Nat) : Record32 := adm [(0, 17), (4, size), (24, base)]

/-- No ring, the largest ring at the top of host memory, and a ring one line past it. -/
theorem test_witness_ConfigureEventsActs :
    (Taken (taking up) (eventRing 0 0) .configureEvents ∧ AdminRecord.param (eventRing 0 0) 4 2 = 0 ∧
      AdminRecord.host (eventRing 0 0) 24 = 0) ∧
    (Taken (taking up) (eventRing 1024 (2 ^ 64 - 16384)) .configureEvents ∧
      (∃ j, 3 ≤ j ∧ j ≤ 10 ∧ AdminRecord.param (eventRing 1024 (2 ^ 64 - 16384)) 4 2 = 2 ^ j) ∧
      (AdminRecord.host (eventRing 1024 (2 ^ 64 - 16384)) 24).toNat % 64 = 0 ∧
      (AdminRecord.host (eventRing 1024 (2 ^ 64 - 16384)) 24).toNat +
        16 * AdminRecord.param (eventRing 1024 (2 ^ 64 - 16384)) 4 2 ≤ 2 ^ 64) ∧
    (Taken (taking up) (eventRing 8 (2 ^ 64 - 64)) .configureEvents ∧
      ¬ AdminRecord.param (eventRing 8 (2 ^ 64 - 64)) 4 2 = 0 ∧
      ¬ (AdminRecord.host (eventRing 8 (2 ^ 64 - 64)) 24).toNat +
        16 * AdminRecord.param (eventRing 8 (2 ^ 64 - 64)) 4 2 ≤ 2 ^ 64) :=
  ⟨⟨taken_of (by decide +kernel), by decide +kernel⟩,
    ⟨taken_of (by decide +kernel), ⟨10, by decide +kernel⟩, by decide +kernel⟩,
    ⟨taken_of (by decide +kernel), by decide +kernel⟩⟩

def withProgress (p : AdminProgress) : State := { up with admin := { up.admin with progress := p } }

theorem test_witness_AdminTransfersAct :
    ((taking up).admin.progress = .reading 0 ∧ (taking up).ready = true) ∧
    ((withProgress (.completing { addr := 0, bytes := [] })).admin.progress = .completing { addr := 0, bytes := [] } ∧
      (withProgress (.completing { addr := 0, bytes := [] })).ready = true ∧
      (withProgress (.completing { addr := 0, bytes := [] })).admin.fault = false) ∧
    ((withProgress (.snapshot 9 1 { addr := 0, bytes := [] })).admin.progress = .snapshot 9 1 { addr := 0, bytes := [] } ∧
      (withProgress (.snapshot 9 1 { addr := 0, bytes := [] })).ready = true) ∧
    (∀ p, ({ withProgress p with ready := false } : State).admin.progress = p) ∧
    ∀ p, let s : State := { up with admin := { up.admin with progress := p, fault := true } }
      s.admin.progress = p ∧ s.ready = true ∧ s.admin.fault = true :=
  ⟨⟨rfl, rfl⟩, ⟨rfl, rfl, rfl⟩, ⟨rfl, rfl⟩, fun _ => rfl, fun _ => ⟨rfl, rfl, rfl⟩⟩

/-- A SET_SYNC at the bounds of its fields, and one of the rows a discarded read may carry. -/
theorem test_witness_AdminTransfersAct_records :
    (AdminRecord.commonOk (sync 7 65535) .setSync = true ∧ AdminRecord.param (sync 7 65535) 4 1 = 7 ∧
      AdminRecord.param (sync 7 65535) 8 4 = 65535) ∧
    (AdminCode.setSync, Instr.setSync (sync 7 65535)) ∈ adminCommands (sync 7 65535) := by
  decide +kernel

/-! ## Hypotheses that can be met: the course of a script, registers and resets -/

def windowed (w : List Entry) (budget executed : Nat) : State :=
  up.setChan 0 (runCh { script0 with window := w, budget := budget, executed := executed })

/-- An empty window, a budget used up, a fetch fault mark, an unknown kind, a known one, a full window. -/
theorem test_witness_NextStepStarts :
    (∀ w b e, ((windowed w b e).chan 0).st = .running ∧
      ((windowed w b e).chan 0).script = some { script0 with window := w, budget := b, executed := e }) ∧
    (script0.checked = true ∧ script0.ending = none ∧ script0.current = none ∧
      ((windowed [] 0 0).chan 0).fetch = none ∧ (windowed [] 0 0).arb.lock ≠ some (0, .step)) ∧
    (StepRecord.kind 0x0D = none ∧ StepRecord.kind 0x0C ≠ none ∧ ((65535 : Nat) ≠ 0 ∧ (65534 : Nat) ≠ 65535) ∧
      (lockHeld up).arb.lock = some (0, .script) ∧ { up.arb with lock := some (0, .step) : Arbiter }.lock = some (0, .step)) ∧
    ¬ [Entry.record 0 0x0C, .record 0 0x0C, .record 0 0x0C, .record 0 0x0C].length < 4 :=
  ⟨fun _ _ _ => ⟨rfl, rfl⟩, by decide +kernel⟩

/-- Channel 0 in a state that ends what it does, with a data transfer or a fetch of it in flight, or neither, and a command that
waits for it. -/
def stops (st : ChanState) (d : Option Data) (f : Option Fetch) (w : List Entry) (on : AdminWait) : State :=
  { up.setChan 0 { runCh { script0 with window := w } with st := st, data := d, fetch := f } with
    admin := { Admin.reset with progress := .waiting 1 on } }
def fetch1 : Fetch := { addr := 0x3000, count := 4, discard := true }

/-- Nothing in flight, with the command that waits for it and without; a transfer of each direction; a fetch, the window empty and
not; and an access. -/
theorem test_witness_NextStepStarts_stopping :
    (∀ st d f w on, ((stops st d f w on).chan 0).st = st ∧ ((stops st d f w on).chan 0).data = d ∧
      ((stops st d f w on).chan 0).fetch = f ∧ (stops st d f w on).admin.progress = .waiting 1 on ∧
      Unended (stops st d f w on) 0) ∧
    (quiet (stops .pausing none none [] (.pause 0)) 0 = true ∧ quiet (stops .stopped none none [] (.release 0)) 0 = true ∧
      adminWaitsOn (stops .faulted none none [] (.pause 0)) (.release 0) = false) ∧
    (quiet (stops .pausing (some (.slotRead 0)) none [] (.pause 0)) 0 = false ∧
      quiet (stops .aborting (some (.slotWrite { addr := 0, bytes := [] })) none [] (.pause 0)) 0 = false ∧
      quiet (stops .aborting none (some fetch1) [] (.pause 0)) 0 = false ∧
      quiet (stops .pausing none (some fetch1) [.fetchFault] (.pause 0)) 0 = false) ∧
    (flying .read none plain 0 0 1 (stops .pausing none none [] (.pause 0))).accessOf 0 = true :=
  ⟨fun _ _ _ _ _ => ⟨rfl, rfl, rfl, rfl, _, rfl, rfl⟩, by decide +kernel⟩

theorem test_witness_RegisterWritesAct :
    (up.ready = true ∧ up.enable = false ∧ up.admin.progress = .idle ∧ up.admin.fault = false) ∧
    (taking up).admin.progress ≠ .idle :=
  ⟨⟨rfl, rfl, rfl, rfl⟩, by decide +kernel⟩

/-- An access in flight of each purpose, and none; an offset with no register, a narrow read at the last byte of a register, a read
that is not aligned and one of 8 bytes that spans two registers. -/
theorem test_witness_RegisterWritesAct_reads :
    (∀ p v g, ∃ f, (flying p v g 0 0xFE 1 up).arb.inflight = some f ∧ f.purpose = p ∧ f.value = v ∧ f.region = g) ∧
    up.arb.inflight = none ∧
    ((0x14 : Nat) ∉ [0x00, 0x04, 0x08, 0x0C, 0x10, 0x20, 0x24, 0x28, 0x2C, 0x30, 0x34] ∧ (0x37 : Nat) % 1 = 0 ∧
      (0x36 : Nat) % 2 = 0 ∧ (0x22 : Nat) % 4 ≠ 0 ∧ (0x20 : Nat) ≠ 0x08) :=
  ⟨fun _ _ _ => ⟨_, rfl, rfl, rfl, rfl⟩, rfl, by decide +kernel⟩

/-- Ring 4, one record unconsumed: tail 3 and head 1 are the last that are valid, tail 4 and head 2 the first that are not. -/
def ring1 : RingPair := { rings4 with unconsumed := 1, cqTail := 1 }

def flushes : State :=
  up.setChan 0 { idleCh with st := .aborting, reserved := false, rings := some ring1, abort := some (.flush 3 0) }

theorem test_witness_QueueIndexWritesAct :
    (up.ready = true ∧ (up.chan 0).rings = none) ∧
    (3 < ring1.sqSize ∧ (ring1.sqTail + ring1.sqSize - ring1.sqHead) % ring1.sqSize ≤
        (3 + ring1.sqSize - ring1.sqHead) % ring1.sqSize) ∧
    (1 < ring1.cqSize ∧ (1 + ring1.cqSize - ring1.cqHead) % ring1.cqSize ≤ ring1.unconsumed) ∧
    ¬ 4 < ring1.sqSize ∧ ¬ (2 + ring1.cqSize - ring1.cqHead) % ring1.cqSize ≤ ring1.unconsumed ∧
    (((up.setChan 0 { idleCh with rings := some ring1 }).chan 0).st = .idle ∧
      ((up.setChan 0 { idleCh with rings := some ring1 }).chan 0).rings = some ring1) ∧
    ((inStep (stepWith .write []) up).chan 0).st ≠ .aborting ∧
    ((flushes.chan 0).st = .aborting ∧ (flushes.chan 0).script = none ∧ (flushes.chan 0).data = none ∧
      (flushes.chan 0).abort = some (.flush 3 0) ∧ ring1.sqHead ≠ 3) ∧
    (up.admin.fault = false ∧ 31 < up.admin.ring.sqSize ∧ ¬ 32 < up.admin.ring.sqSize) ∧ up.events.size = 0 ∧
    ({ EventUnit.reset with size := 8, unconsumed := 7 } : EventUnit).fault = false := by
  decide +kernel

/-- No command that waits, and each that may, in every state of the channel with every abort; the lock held with the access in
flight, and with none. The channel may stand on any list, its request presented (`cutOff_forms`). -/
theorem test_witness_QueueIndexWritesAct_fault :
    (∀ id on, (up.setChan 0 idleCh).admin.progress ≠ .waiting id on) ∧
    (∀ st a p, let s := (withProgress p).setChan 0 { runCh script0 with st := st, abort := a }
      s.admin.progress = p ∧ (s.chan 0).st = st ∧ (s.chan 0).abort = a ∧ OnNoList (s.setPresented 0 none) 0) ∧
    (lockHeldBy (lockHeld reads) 0 = true ∧ reads.accessOf 0 = true ∧ lockHeldBy (lockHeld up) 0 = true ∧
      up.accessOf 0 = false ∧ lockHeldBy up 0 = false) ∧
    (∃ t, CutOff (atCounter.setPresented 0 none) 0 t) ∧ ∃ t, CutOff (atLine.setPresented 0 none) 0 t :=
  ⟨fun _ _ h => absurd (h : AdminProgress.idle = _) nofun,
    fun _ _ _ => ⟨rfl, rfl, rfl, show OnNoList up 0 by simp only [OnNoList]; decide +kernel⟩, by decide +kernel,
    (cutOff_forms (fun s => s.setPresented 0 none) fun _ => ⟨rfl, rfl⟩).2.2⟩

def resetting : State := { up with ready := false, cause := .hostRequest }

/-- A RUNNING channel with this transfer, a fetch or none, and this step current. -/
def asksWait (d : Option Data) (f : Bool) (st : Option Step) : Channel :=
  { runCh { script0 with current := st } with
    data := d, fetch := if f then some { addr := 0, count := 4, discard := false } else none }

/-- A reset with an access in flight and without, a region change that waits as it starts, its end, and the initialisation with a
BRST and without. -/
theorem test_witness_ResetsAct :
    (reads.ready = true ∧ reads.arb.inflight.isSome = true) ∧ (up.ready = true ∧ up.arb.inflight = none ∧ up.regionWait = none) ∧
    (resetting.ready = false ∧ resetting.cause ≠ .powerOn ∧ resetting.arb.inflight = none ∧
      resetting.admin.progress = .idle ∧ (∀ c, (resetting.chan c).data = none ∧ (resetting.chan c).fetch = none) ∧
      resetting.events.write = none ∧ ∀ v, (resetting.vector v).messages = 0) ∧
    ({ reads with ready := false, cause := .linkReset } : State).arb.inflight ≠ none ∧
    (State.reset.ready = false ∧ State.reset.cause = .powerOn ∧ State.reset.arb.inflight = none ∧ State.reset.own.brst = false) ∧
    (owned (fun o => { o with brst := true }) State.reset).own.brst = true := by
  decide +kernel

/-- A channel in RUNNING and one in another state; an access in flight and none; a transfer and none; a fetch that is waited for,
and a prefetch. -/
theorem test_witness_ResetsAct_waits :
    (((waitingFor .access (stepWith .read []) up).chan 0).st = .running ∧ (State.reset.chan 0).st ≠ .running) ∧
    (reads.arb.inflight.any (fun f => f.chan == 0) = true ∧ up.arb.inflight = none) ∧
    ((asksWait (some (.requestRead 0)) false none).data.isSome = true ∧ (asksWait none true none).data = none) ∧
    ((asksWait none true none).fetch.isSome = true ∧ (asksWait none true none).script = some script0 ∧
      script0.window = [] ∧ script0.current = none ∧
      (asksWait none true (some (stepWith .waiting []))).script.any (fun sc => sc.current.isSome) = true) := by
  decide +kernel

theorem test_witness_ResetsAct_region :
    let s : State := { mapped resetting with regionWait := some (.clear 0) }
    (∀ id, s.admin.progress ≠ .waiting id .region) ∧ s.regionWait = some (.clear 0) :=
  ⟨fun _ h => absurd (h : AdminProgress.idle = _) nofun, rfl⟩

theorem test_witness_VectorsAtResets :
    (∃ t, exec .powerOn up = .next t) ∧ (∃ t, exec .bridgeResetComplete resetting = .next t ∧ t.ready = true) ∧
    resetting.ready = false ∧ (up.vector 5).masked = true :=
  ⟨exec_next _ _, of_after (by decide +kernel), rfl, by decide +kernel⟩

/-! ## Hypotheses that can be met: ends of host transfers -/

def unchecked : Script := { script0 with tagValid := false, checked := false, ordinals := 0 }
def asksRead : State := up.setChan 0 { runCh unchecked with data := some (.requestRead 0x1000) }
def flushReads : State :=
  up.setChan 0 { idleCh with st := .aborting, reserved := true, data := some (.flushRead 0x1000), abort := some (.flush 3 0) }

/-- A list at the highest multiple of 16, and one that is no multiple. -/
def requestAt (a : Nat) : Record32 := BitVec.ofNat 256 (fields [(0, 0xFFFF), (2, 0x0F), (4, 0xFFFF), (8, a)])

theorem test_witness_RequestsArrive :
    (up.ready = true ∧ ((up.setChan 0 { idleCh with rings := some { tail1 with unconsumed := 3 } }).chan 0).rings =
        some { tail1 with unconsumed := 3 } ∧ tail1.sqHead ≠ tail1.sqTail ∧ (3 : Nat) + 0 < tail1.cqSize) ∧
    (((up.setChan 0 idleCh).chan 0).rings = some rings4 ∧ rings4.sqHead = rings4.sqTail) ∧
    ((asksRead.chan 0).data = some (.requestRead 0x1000) ∧ (asksRead.chan 0).script = some unchecked ∧
      (asksRead.chan 0).st = .running ∧ (asksRead.chan 0).fetch = none ∧ unchecked.current = none ∧
      unchecked.window = [] ∧ unchecked.ending = none ∧ (asksRead.chan 0).rings = some rings4) ∧
    (let q := requestAt (2 ^ 64 - 16);
      (q.extractLsb' 64 64).toNat % 16 = 0 ∧ q.extractLsb' 20 12 = 0 ∧ q.extractLsb' 48 16 = 0 ∧ q.extractLsb' 128 128 = 0) ∧
    (((requestAt 8).extractLsb' 64 64).toNat % 16 ≠ 0 ∧ (adm [(2, 0x10)]).extractLsb' 20 12 ≠ 0 ∧
      (adm [(7, 0x80)]).extractLsb' 48 16 ≠ 0 ∧ (adm [(31, 0x80)]).extractLsb' 128 128 ≠ 0) ∧
    ((flushReads.chan 0).data = some (.flushRead 0x1000) ∧ (flushReads.chan 0).st = .aborting ∧
      (flushReads.chan 0).rings = some rings4) := by
  decide +kernel

/-- The read of a request, or of a request to flush, ends in each other state, with a script and without. -/
theorem test_witness_RequestsArrive_stopping :
    ∀ st sc d, let s := up.setChan 0 { idleCh with st := st, script := sc, data := some d }
      s.ready = true ∧ (s.chan 0).st = st ∧ (s.chan 0).script = sc ∧ (s.chan 0).data = some d ∧
        (s.chan 0).rings = some rings4 :=
  fun _ _ _ => ⟨rfl, rfl, rfl, rfl, rfl⟩

def fetched (discard : Bool) : State :=
  up.setChan 0 { runCh script0 with fetch := some { addr := 0x3000, count := 4, discard := discard } }

/-- A step of channel 0 with this transfer of it in flight. -/
def moves (d : Data) (st : Step) : State :=
  master (up.setChan 0 { runCh { script0 with current := some st } with data := some d })

def in2 (k : Nat) : Step := stepWith (.blockIn k 0xFFFFFF (some 7)) [(0, 5), (2, 0xFFFFFE), (6, 2), (8, 0x4000)]
def in3 (next : Nat) : Step := stepWith (.blockIn 1 next (some 7)) [(0, 5), (2, 0xFFFFFD), (6, 3), (8, 0x4000)]
def out1 : Step := stepWith (.blockOut 0 0xFFFFFF none) [(0, 6), (2, 0xFFFFFF), (6, 1), (8, 0x4000)]
def read1 : Step := stepWith (.readValue 7) [(0, 2), (8, 0x4000)]

/-- A transfer of channel 0 in flight, in a state of the channel and with READY or without. -/
theorem test_witness_TransfersEnd :
    ∀ ready st d f p fs e, let sc := { midStep p fs with ending := e }
      let s := { up.setChan 0 { runCh sc with st := st, data := some d, fetch := some f } with ready := ready }
      s.ready = ready ∧ (s.chan 0).st = st ∧ (s.chan 0).data = some d ∧ (s.chan 0).fetch = some f ∧
        (s.chan 0).script = some sc ∧ (s.chan 0).rings = some rings4 ∧ (e = none → InStep s 0 sc (stepWith p fs)) :=
  fun _ _ _ _ _ _ _ => ⟨rfl, rfl, rfl, rfl, rfl, rfl, fun h => ⟨rfl, h, rfl⟩⟩

/-- No script in FAULTED; the last unit of a block and one before it; the last address and the first past it. -/
theorem test_witness_TransfersEnd_units :
    ((up.setChan 0 { idleCh with st := .faulted, data := some (.slotRead 0) }).chan 0).script = none ∧
    ((in2 1).progress = .blockIn 1 0xFFFFFF (some 7) ∧ 1 + 1 = StepRecord.count (in2 1).bits ∧
      0 + 1 ≠ StepRecord.count (in2 0).bits) ∧
    (out1.progress = .blockOut 0 0xFFFFFF none ∧ 0xFFFFFF ≤ 0xFFFFFF ∧ (master up).own.mode ≠ .isolated) ∧
    (1 + 1 ≠ StepRecord.count (in3 0x1000000).bits ∧ 0xFFFFFF < 0x1000000 ∧
      (in3 0x1000000).progress = .blockIn 1 0x1000000 (some 7)) := by
  decide +kernel

/-- Channel 3 posts the completion of the last slot of its ring. -/
def posts (st : ChanState) (sc : Option Script) (a : Option Abort) (p : AdminProgress) : State :=
  (withProgress p).setChan 3
    { runCh script0 with
      st := st, script := sc, abort := a, rings := some { rings4 with cqTail := 3 },
      data := some (.completion { addr := 0x2030, bytes := [] }) }

/-- In each state, with each command that may wait for it. -/
theorem test_witness_CompletionPosted :
    ∀ st sc a p, let s := posts st sc a p
      s.ready = true ∧ (s.chan 3).data = some (.completion { addr := 0x2030, bytes := [] }) ∧
      (s.chan 3).rings = some { rings4 with cqTail := 3 } ∧ (s.chan 3).script = sc ∧
      (s.chan 3).st = st ∧ (s.chan 3).abort = a ∧ s.admin.progress = p :=
  fun _ _ _ _ => ⟨rfl, rfl, rfl, rfl, rfl, rfl, rfl⟩

/-- The flush at its boundary and short of it, with a slot free and with none. -/
theorem test_witness_CompletionPosted_commands :
    ended0.ending = some { status := .ok, ordinal := 0, detail := 0 } ∧
    adminWaitsOn (posts .running (some ended0) none .idle) (.abort 3) = false ∧
    adminWaitsOn (posts .paused (some ended0) none (.waiting 1 (.start 3))) (.abort 3) = false ∧
    (rings4.sqHead = 0 ∧ rings4.sqHead ≠ 3 ∧ rings4.unconsumed + 1 < rings4.cqSize) ∧
    ({ rings4 with unconsumed := 3 }.cqSize ≤ { rings4 with unconsumed := 3 }.unconsumed + 1 ∧
      (posts .aborting none none .idle).accessOf 3 = false) := by
  decide +kernel

def record1 : EventRecord := { kind := .attention, source := 7, occurrences := 65535, stamp := 0, detail := 0 }

/-- An event ring of 8 slots with one free, at its last slot. -/
def eventful (stale : Option Bool) : State :=
  { up with events := { EventUnit.reset with
    size := 8, tail := 7, unconsumed := 7, holding := [record1],
    write := stale.map fun b => { record := record1, write := { addr := 0, bytes := [] }, stale := b } } }

theorem test_witness_EventWriteAndMessageEnd :
    (up.ready = true ∧ (eventful none).events.size ≠ 0 ∧ (eventful none).events.fault = false ∧
      (eventful none).events.write = none ∧ (eventful none).events.unconsumed < (eventful none).events.size ∧
      (eventful none).events.holding = [record1]) ∧
    (∀ b, (eventful (some b)).events.write = some { record := record1, write := { addr := 0, bytes := [] }, stale := b }) ∧
    (eventful (some true)).events.holding = [] ++ record1 :: [] ∧
    ((up.setVector 5 { masked := false, waiting := false, messages := 1 }).vector 5).messages ≠ 0 ∧
    (({ eventful (some false) with ready := false } : State).events.write ≠ none ∧
      (({ up with ready := false } : State).setVector 5 { masked := true, waiting := false, messages := 1 }).ready = false) ∧
    (State.reset.ready = false ∧ up.events.size = 0 ∧ (eventful (some true)).events.write.isSome = true ∧
      { EventUnit.reset with size := 8, unconsumed := 8 }.size ≤ { EventUnit.reset with size := 8, unconsumed := 8 }.unconsumed) := by
  decide +kernel

/-! ## Hypotheses that can be met: steps -/

/-- Channel 0 has started a step of this code at this address; the other fields follow. -/
def fresh (code a : Nat) (fs : List (Nat × Nat)) : Step := stepWith .fresh ((0, code) :: (2, a) :: fs)
def starts (st : Step) : State := inStep st (master (mapped up))

/-- No diverted read at an address no window holds; the diverted one with its entry, and without; ISOLATED; a failed check. -/
theorem test_witness_AccessStepsPresent :
    ((starts (fresh 9 0 [])).ready = true ∧ ((starts (fresh 9 0 [])).chan 0).st = .running ∧
      (starts (fresh 9 0 [])).step? 0 = some (fresh 9 0 []) ∧ StepRecord.kind (fresh 9 0 []).bits = some .delay ∧
      StepRecord.ok (fresh 9 0 []).bits .delay = false) ∧
    (∀ a ∈ [0x200, 0x1FF, 0x100], StepRecord.addr (fresh 2 a []).bits = BitVec.ofNat 24 a) ∧
    (lookup (mapped up).regions 0x200 = none ∧ lookup (mapped up).regions 0x1FF = some (1, shaded) ∧
      lookup (mapped up).regions 0x100 = some (1, shaded) ∧ shaded.rights = .writeOnlyShadowed ∧ shaded.width = .w8) ∧
    ((mapped up).shadow.find? (fun x => x.addr == 0x1FF) = some { addr := 0x1FF, value := 0x33, index := 1 } ∧
      ∀ x ∈ (mapped up).shadow, x.addr ≠ 0x100) ∧
    (starts (fresh 2 0 [])).own.mode ≠ .isolated ∧ (inStep (fresh 1 0 []) up).own.mode = .isolated := by
  decide +kernel

/-- A script under LOCK_BUS and one without; the lock held by the channel itself and by another; a LOCKED step and one that is not,
at its first unit and behind it. -/
theorem test_witness_AccessStepsPresent_marks :
    (∀ sc, ((up.setChan 0 (runCh sc)).chan 0).script = some sc) ∧
    ((lockHeld up).arb.lock = some (0, .script) ∧ (∀ k, (lockHeld up).arb.lock ≠ some (3, k)) ∧ ∀ k, up.arb.lock ≠ some (0, k)) ∧
    (script0.lockBus = false ∧ { script0 with lockBus := true }.lockBus = true) ∧
    ((stepWith .modRead [(0, 3), (1, 1)]).bits.getLsbD 8 = true ∧ (stepWith .write [(0, 1)]).bits.getLsbD 8 = false) ∧
    (∃ n x, (in2 0).progress = .blockIn 0 n x) ∧ (∃ n x, out1.progress = .blockOut 0 n x) ∧
    let p := (in2 1).progress
    ¬ (p = .modRead ∨ (∃ b, p = .modWrite none b) ∨ (∃ n x, p = .blockIn 0 n x) ∨ ∃ n x, p = .blockOut 0 n x) :=
  ⟨fun _ => rfl, ⟨rfl, nofun, nofun⟩, ⟨rfl, rfl⟩, by decide +kernel,
    ⟨_, _, rfl⟩, ⟨_, _, rfl⟩, by simp [in2, stepWith]⟩

/-- One step of each kind at the bounds of its fields. -/
def boundary : List (StepKind × Step) :=
  [(.write, fresh 1 0xFFFFFF [(8, 0xFFFF)]), (.read, fresh 2 0x200 [(8, 2 ^ 64 - 2)]), (.read, fresh 2 0x100 []),
   (.modify, fresh 3 0x200 []), (.modify, fresh 3 0x1FF [(1, 1)]), (.poll, fresh 4 0 [(8, 0xFF00), (10, 0xFF00), (14, 1)]),
   (.blockIn, fresh 5 0 [(6, 4096)]), (.blockOut, fresh 6 0xFFFFFF [(6, 1), (8, 2 ^ 64 - 2)]),
   (.call, fresh 7 0 [(8, 2 ^ 64 - 16)]), (.endStep, fresh 8 0 []), (.delay, fresh 9 0 [(6, 65535)]),
   (.signal, fresh 10 7 [(6, 1)]), (.await, fresh 11 7 [(6, 3)]), (.await, fresh 11 7 [(1, 4), (6, 3)]),
   (.await, fresh 11 7 [(6, 3), (8, 1)]), (.attend, fresh 12 7 [])]

theorem boundary_ready : ∀ p ∈ boundary, p.2.progress = .fresh ∧ StepRecord.kind p.2.bits = some p.1 ∧
    StepRecord.ok p.2.bits p.1 = true := by
  decide +kernel

/-- Each of them is ready to be carried out. -/
theorem test_witness_Ready : ∀ p ∈ boundary, Ready (starts p.2) 0 p.1 p.2 :=
  fun p h => ⟨rfl, rfl, rfl, boundary_ready p h⟩

/-- A step at any depth of the link stack. -/
def deepStep (links : List HostAddr) (st : Step) : State :=
  up.setChan 0 (runCh { script0 with current := some st, links := links })

theorem test_witness_TurnStepsAct :
    ∀ links, ∀ p ∈ boundary, Ready (deepStep links p.2) 0 p.1 p.2 ∧
      InStep (deepStep links p.2) 0 { script0 with current := some p.2, links := links } p.2 :=
  fun _ p h => ⟨⟨rfl, rfl, rfl, boundary_ready p h⟩, rfl, rfl, rfl⟩

/-- The step's own lock may be held at an END too. -/
theorem test_witness_TurnStepsAct_lock :
    ∀ k, ∀ p ∈ boundary,
      let s : State := { deepStep [] p.2 with arb := { Arbiter.reset with lock := some (0, k) } }
      s.arb.lock = some (0, k) ∧ Ready s 0 p.1 p.2 ∧ InStep s 0 { script0 with current := some p.2 } p.2 :=
  fun _ p h => ⟨rfl, ⟨rfl, rfl, rfl, boundary_ready p h⟩, rfl, rfl, rfl⟩

def counted (v : Nat) (ws : List SyncWaiter) (st : Step) : State := inStep st (up.setCounter 7 { value := v, waiters := ws })
def lined (l : AttnLine) (st : Step) : State := inStep st (up.setLine 7 l)
def edgeWait (n : Nat) : AttnLine := { AttnLine.reset with mode := .edge, route := .wait, count := n }
def levelWait (b : Bool) : AttnLine := { AttnLine.reset with mode := .level, route := .wait, level := b }

/-- Each step finds its counter, or its line, as it is given. -/
theorem test_witness_SyncStepsAct :
    ∀ v ws l, ∀ p ∈ boundary, Ready (counted v ws p.2) 0 p.1 p.2 ∧ ((counted v ws p.2).counter 7) = { value := v, waiters := ws } ∧
      Ready (lined l p.2) 0 p.1 p.2 ∧ (lined l p.2).line 7 = l :=
  fun _ _ _ p h => ⟨⟨rfl, rfl, rfl, boundary_ready p h⟩, rfl, ⟨rfl, rfl, rfl, boundary_ready p h⟩, rfl⟩

/-- A sum of 65535 and one of 65536, a threshold met, met with CONSUME, and not met; each line. -/
theorem test_witness_SyncStepsAct_values :
    (StepRecord.index (fresh 10 7 [(6, 1)]).bits = 7 ∧ StepRecord.count (fresh 10 7 [(6, 1)]).bits = 1 ∧ 65534 + 1 ≤ 65535 ∧
      65535 < 65535 + 1) ∧
    (StepRecord.index (fresh 11 7 [(6, 3)]).bits = 7 ∧ StepRecord.count (fresh 11 7 [(6, 3)]).bits = 3 ∧
      StepRecord.consume (fresh 11 7 [(6, 3)]).bits = false ∧ StepRecord.consume (fresh 11 7 [(1, 4), (6, 3)]).bits = true) ∧
    (StepRecord.index (fresh 12 7 []).bits = 7 ∧ AttnLine.reset.mode = .off ∧ (edgeWait 1).count ≠ 0 ∧ (edgeWait 0).count = 0 ∧
      (levelWait true).level = true ∧ (levelWait false).level = false) := by
  decide +kernel

/-! ## Hypotheses that can be met: ends of accesses -/

/-- The access in flight of a step of channel 0, over the plain window or over the shadowed one. -/
def ends (p : Purpose) (v : Option Value) (n : Nat) (st : Step) : State :=
  flying p v plain 0 0xFE n (inStep st (master (mapped up)))
def endsShaded (v : Value) (a : BusAddr) (s : State) (st : Step) : State :=
  flying .write (some v) shaded 1 a 1 (inStep st (master s))

/-- The access in flight of channel 0 in a state, with READY or without. -/
def endsIn (ready : Bool) (st : ChanState) (p : Purpose) (v : Option Value) (n : Nat) (step : Step) : State :=
  let s := ends p v n step
  { s.setChan 0 { s.chan 0 with st := st } with ready := ready }

/-- Attempt 1 with one retry left and attempt 2 with none, in every state of the channel, in a bridge reset, and in FIXED mode. -/
theorem test_witness_AttemptsEnd :
    up.arb.inflight = none ∧
    (∀ b st n, ∃ f, (endsIn b st .read none n read1).arb.inflight = some f ∧ f.region = plain ∧ f.attempt = n ∧ f.chan = 0 ∧
      (endsIn b st .read none n read1).ready = b ∧ ((endsIn b st .read none n read1).chan 0).st = st) ∧
    (plain.readyMode = .sampled ∧ 1 ≤ plain.retries ∧ plain.retries < 2) ∧
    (lockHeldBy (endsIn true .faulted .read none 1 read1) 0 = false ∧
      lockHeldBy (lockHeld (endsIn true .faulted .read none 1 read1)) 0 = true) ∧
    ∃ f, (endsShaded 1 0x100 (mapped up) read1).arb.inflight = some f ∧ f.region.readyMode = .fixed :=
  ⟨rfl, fun _ _ _ => ⟨_, rfl, rfl, rfl, rfl, rfl, rfl⟩, by decide, by decide +kernel, _, rfl, rfl⟩

def writeStep : Step := stepWith .write [(0, 1), (2, 0x1FF), (8, 0xFF)]
def pollStep (tries : Nat) (soft : Nat) : Step :=
  stepWith (.poll tries 0) [(0, 4), (1, soft), (2, 0xFE), (8, 0xFFFF), (10, 1), (12, 1), (14, 2)]
def blocks (k count : Nat) (a : Nat) : Step := stepWith (.blockOut k a (some 1)) [(0, 6), (6, count), (2, 0), (8, 0x4000)]

/-- Every outcome finds its channel in a step, in each state, with READY or without. -/
theorem test_witness_OutcomesTaken :
    ∀ b st p v n step, ∃ f, (endsIn b st p v n step).arb.inflight = some f ∧ f.chan = 0 ∧ f.purpose = p ∧ f.value = v ∧
      (endsIn b st p v n step).ready = b ∧ ((endsIn b st p v n step).chan 0).st = st ∧
      InStep (endsIn b st p v n step) 0 { script0 with current := some step } step :=
  fun _ _ _ _ _ _ => ⟨_, rfl, rfl, rfl, rfl, rfl, rfl, rfl, rfl, rfl⟩

/-- A write recorded in its entry, in a new one, and refused by a full store. -/
theorem test_witness_OutcomesTaken_store :
    (∀ v a t step, ∃ f, (endsShaded v a t step).arb.inflight = some f ∧ f.value = some v ∧ f.addr = a ∧ f.region = shaded ∧
      f.purpose = .write ∧ (endsShaded v a t step).shadow = t.shadow) ∧
    (shaded.rights = .writeOnlyShadowed ∧ Purpose.write.isWrite = true ∧ Purpose.read.isWrite = false) ∧
    ((∃ e ∈ (mapped up).shadow, e.addr = 0x1FF) ∧ (∀ e ∈ (mapped up).shadow, e.addr ≠ 0x100) ∧
      (mapped up).shadow.length < 64 ∧ (∀ e ∈ fullStore.shadow, e.addr ≠ 0x100) ∧ 64 ≤ fullStore.shadow.length) ∧
    script0.shadowStrict = false ∧ ({ script0 with shadowStrict := true } : Script).shadowStrict = true :=
  ⟨fun _ _ _ _ => ⟨_, rfl, rfl, rfl, rfl, rfl, rfl⟩, by decide +kernel⟩

/-- A try that meets its condition, the last try with SOFT and without, an interval of 1 µs and of 0; the last unit of a block and
one before it, at the highest address that has a next one and at the first that has none. -/
theorem test_witness_OutcomesTaken_steps :
    ((1 : Value) &&& StepRecord.mask (pollStep 1 0).bits = StepRecord.wanted (pollStep 1 0).bits ∧
      ¬ (0 : Value) &&& StepRecord.mask (pollStep 1 0).bits = StepRecord.wanted (pollStep 1 0).bits ∧
      (pollStep 2 0).progress = .poll 2 0) ∧
    (StepRecord.soft (pollStep 1 0).bits = false ∧ StepRecord.soft (pollStep 1 8).bits = true ∧
      StepRecord.interval (pollStep 2 0).bits = 1 ∧ StepRecord.interval (stepWith (.poll 2 0) [(0, 4)]).bits = 0) ∧
    (1 + 1 = StepRecord.count (blocks 1 2 0xFE).bits ∧ 0 + 1 ≠ StepRecord.count (blocks 0 2 0xFE).bits ∧
      (blocks 1 2 0xFE).progress = .blockOut 1 0xFE (some 1) ∧ ¬ StepRecord.fixedAddr (blocks 0 2 0xFE).bits = true ∧
      (0xFFFFFC : BusAddr).toNat + 2 ≤ 0xFFFFFF ∧ 0xFFFFFF < (0xFFFFFE : BusAddr).toNat + 2) := by
  decide +kernel

/-! ## Hypotheses that can be met: timers and lines -/

def presents0 : State :=
  let s := inStep (stepWith .write [(0, 1), (2, 0xFFFFFF)]) (guest up)
  let r : Request := { addr := 0xFFFFFF, purpose := .write, value := some 0, mark := none, attempt := 1, presentedAt := 0 }
  (s.setChan 0 { s.chan 0 with grantLimit := 1 }).setPresented 0 (some r)

def timed (st : Step) (s : State) : State := s.setChan 0 { runCh { script0 with current := some st } with timer := some 1 }
def awaits : Step := stepWith .waiting [(0, 11), (1, 4), (2, 7), (6, 3), (8, 1)]
def attends : Step := stepWith .waiting [(0, 12), (2, 7), (8, 1)]
def syncWaiter0 : SyncWaiter := { chan := 0, threshold := 3, consume := true, timeout := some 1 }

theorem test_witness_ScriptTimersRunOut :
    (presents0.ready = true ∧ presents0.step? 0 = some (stepWith .write [(0, 1), (2, 0xFFFFFF)]) ∧
      (presents0.presentedOf 0).isSome = true ∧ (presents0.chan 0).grantLimit ≠ 0) ∧
    ((timed (stepWith .waiting [(0, 9), (6, 1)]) up).step? 0 = some (stepWith .waiting [(0, 9), (6, 1)]) ∧
      ((timed (stepWith .waiting [(0, 9), (6, 1)]) up).chan 0).st = .running ∧
      ((timed (stepWith .waiting [(0, 9), (6, 1)]) up).chan 0).timer.isSome = true ∧
      StepRecord.kind (stepWith .waiting [(0, 9), (6, 1)]).bits = some .delay) ∧
    ((timed (pollStep 1 0) (master up)).step? 0 = some (pollStep 1 0) ∧ StepRecord.kind (pollStep 1 0).bits = some .poll ∧
      (pollStep 1 0).progress = .poll 1 0 ∧ (timed (pollStep 1 0) (master up)).own.mode ≠ .isolated) ∧
    ((counted 0 [syncWaiter0] awaits).step? 0 = some awaits ∧ awaits.progress = .waiting ∧
      StepRecord.kind awaits.bits = some .await ∧
      ((counted 0 [syncWaiter0] awaits).counter (StepRecord.index awaits.bits)).waiters.find? (fun w => w.chan == 0) =
        some syncWaiter0 ∧ syncWaiter0.timeout.isSome = true) ∧
    ((lined { edgeWait 0 with waiters := [{ chan := 0, timeout := some 1 }] } attends).step? 0 = some attends ∧
      attends.progress = .waiting ∧ StepRecord.kind attends.bits = some .attend ∧
      ∃ w ∈ ((lined { edgeWait 0 with waiters := [{ chan := 0, timeout := some 1 }] } attends).line
        (StepRecord.index attends.bits)).waiters, w.chan = 0 ∧ w.timeout.isSome = true) := by
  decide +kernel

theorem test_witness_PortTimersRunOut :
    (let s := owned (fun o => { o with turnTimer := some 15 }) (inMaster .settling);
      s.own.turnTimer.isSome = true ∧ s.own.passage = none ∧ s.own.state = .settling) ∧
    (let s := owned (fun o => { o with turnTimer := some 1, passage := some .master, req := true, answers := true })
        (withProgress (.waiting 1 .portMode));
      s.own.passage = some .master ∧ s.own.req = true ∧ s.own.answers = true ∧ s.admin.progress = .waiting 1 .portMode) ∧
    (let s := owned (fun o => { o with leaseTimer := some 1 }) (inMaster .granted);
      s.own.state = .granted ∧ s.own.leaseTimer.isSome = true) ∧
    (let s := owned (fun o => { o with holdTimer := some 16777215 }) (guest up);
      s.own.state = .holding ∧ s.own.holdTimer.isSome = true) ∧
    (let s := owned (fun o => { o with mode := .master, state := .pulsing, pulseTimer := some 1000, answers := true })
        (withProgress (.waiting 1 .pulse));
      s.own.state = .pulsing ∧ s.own.pulseTimer.isSome = true ∧ s.admin.progress = .waiting 1 .pulse ∧ s.own.brst = false ∧
        (owned (fun o => { o with brst := true, answers := false }) s).own.brst = true ∧ s.arb.inflight = none) ∧
    (let s := owned (fun o => { o with cmd := some (.reset 1000), changeTimer := some 1 }) (master (withProgress (.waiting 1 .pulse)));
      s.own.cmd = some (.reset 1000) ∧ s.own.changeTimer.isSome = true) ∧
    (({ up with timebase := 0xFFFFFFFF } : State).ready = true) := by
  decide +kernel

/-- A passage to each mode with REQ low and high, its command answered and abandoned; a pulse whose command is abandoned. -/
theorem test_witness_PortTimersRunOut_abandoned :
    (∀ m r b p, let s := owned (fun o => { o with turnTimer := some 1, passage := some m, req := r, answers := b }) (withProgress p)
      s.own.turnTimer.isSome = true ∧ s.own.passage = some m ∧ s.own.req = r ∧ s.own.answers = b ∧ s.admin.progress = p) ∧
    (up.own.params.turnaround = 0 ∧ up.own.params.leaseLimit = 0 ∧ up.own.gnt = false ∧ (∀ c, up.presentedOf c = none) ∧
      (asks 3 up).presentedOf 3 ≠ none) ∧
    ∀ id on, up.admin.progress ≠ .waiting id on :=
  ⟨fun _ _ _ _ => ⟨rfl, rfl, rfl, rfl, rfl⟩, by decide +kernel, fun _ _ => nofun⟩

/-- The lock timer runs out with an access in flight and with none: with no lock held, and
in each state of the holder, its script ended or not, its request presented or not. -/
theorem test_witness_PortTimersRunOut_lock :
    let timed (s : State) : State := owned (fun o => { o with lockTimer := some 65535 }) s
    (∀ s, (timed s).own.lockTimer.isSome = true ∧ (timed (lockHeld s)).arb.lock = some (0, .script)) ∧
    ((timed (ends .read none 1 read1)).arb.inflight.isSome = true ∧ (timed up).arb.lock = none ∧ (timed up).arb.inflight = none) ∧
    (∀ st sc, let s := timed (lockHeld ((master up).setChan 0 { runCh sc with st := st }))
      s.arb.inflight = none ∧ (s.chan 0).st = st ∧ (s.chan 0).script = some sc) ∧
    (asks 0 (timed (lockHeld (master up)))).presentedOf 0 ≠ none ∧ ¬ Unended (onChan (runCh ended0)) 0 :=
  ⟨fun _ => ⟨rfl, rfl⟩, by decide +kernel, fun _ _ => ⟨rfl, rfl, rfl⟩, by decide +kernel,
    fun ⟨_, h, e⟩ => by cases (h : some ended0 = some _); cases e⟩

/-- REQ and BRST: low, and high; GRANTED with a command that waits and without; BRST with an access in flight and without, and
where it is not observed. -/
theorem test_witness_BusLinesChange :
    (up.own.req = false ∧ up.own.gnt = false ∧ up.own.brst = false ∧ up.own.state ≠ .pulsing ∧ up.ready = true ∧
      up.arb.inflight = none) ∧
    (let s := owned (fun o => { o with req := true }) (inMaster .granted);
      s.own.req = true ∧ s.own.mode = .master ∧ s.own.state = .granted ∧ s.own.cmd = none ∧
        (commanded leaving s).own.cmd = some leaving) ∧
    (up.own.params.turnaround = 0 ∧ { up.own.params with turnaround := 15 }.turnaround ≠ 0) ∧
    ((owned (fun o => { o with req := true }) up).own.req = true ∧ ¬ (up.own.mode = .master ∧ up.own.state = .granted)) ∧
    (owned (fun o => { o with brst := true }) up).own.brst = true ∧ (inMaster .pulsing).own.state = .pulsing ∧
    (State.reset.ready = false ∧ State.reset.cause = .powerOn) ∧
    (flying .read none plain 0 0 1 up).arb.inflight.isSome = true := by
  decide +kernel

/-- GNT: high in each state of a GUEST and low in REQUESTING; its fall with an access in flight, with a command
that waits, and with a lock held by each state of its holder. -/
theorem test_witness_BusLinesChange_gnt :
    (∀ st, (inGuest st).own.gnt = true ∧ (inGuest st).own.mode = .guest ∧ (inGuest st).own.state = st ∧
      (owned (fun o => { o with gnt := false }) (inGuest st)).own.gnt = false) ∧
    ((inGuest .settling).arb.inflight = none ∧ (inGuest .settling).arb.lock = none ∧
      (inGuest .settling).own.cmd = none ∧ (commanded leaving (inGuest .settling)).own.cmd = some leaving) ∧
    (flying .read none plain 0 0 1 (guest up)).arb.inflight.isSome = true ∧
    ∀ st sc cmd, let s := owned (fun o => { o with cmd := cmd }) (lockHeld ((guest up).setChan 0 { runCh sc with st := st }))
      s.arb.lock = some (0, .script) ∧ (s.chan 0).st = st ∧ (s.chan 0).script = some sc ∧
        s.arb.inflight = none ∧ s.own.cmd = cmd :=
  ⟨fun _ => ⟨rfl, rfl, rfl, rfl⟩, by decide +kernel, by decide +kernel, fun _ _ _ => ⟨rfl, rfl, rfl, rfl, rfl⟩⟩

def edge1 (n : Nat) (ws : List AttnWaiter) : State := up.setLine 7 { edgeWait n with waiters := ws }

theorem test_witness_AttentionLinesChange :
    up.ready = true ∧ ((up.setLine 7 (levelWait true)).line 7).level = true ∧
    ((up.line 7).level = false ∧ (up.line 7).mode = .off) ∧
    ((up.setLine 7 { AttnLine.reset with mode := .edge }).line 7).route = .event ∧
    ((edge1 0 [{ chan := 3, timeout := none }]).line 7).waiters = { chan := 3, timeout := none } :: [] ∧
    (((edge1 14 []).line 7).waiters = [] ∧ ((edge1 14 []).line 7).count < 15) ∧
    (((edge1 15 []).line 7).waiters = [] ∧ 15 ≤ ((edge1 15 []).line 7).count) ∧
    (((up.setLine 7 (levelWait false)).line 7).mode = .level ∧ ((up.setLine 7 (levelWait false)).line 7).route = .wait) ∧
    (State.reset.ready = false ∧ State.reset.cause = .powerOn ∧ (State.reset.setLine 7 (edgeWait 1)).ready = false) ∧
    (resetting.ready = false ∧ resetting.cause ≠ .powerOn) := by
  decide +kernel

end Sys2Proof.Tests
end

section
/-! PROOF. SET_PORT_MODE (R122, R123): its ranges, what it answers in each case, and the statement of R123. -/

namespace Sys2Proof.Machine

open Sys2Proof.Safety

/-! ## The fields of the command (R122) -/

theorem portModeOf_code (m : PortMode) : portModeOf m.code = some m := by cases m <;> rfl

theorem portModeOf_none {v : Nat} (h : 2 < v) : portModeOf v = none := by
  obtain ⟨k, rfl⟩ := Nat.exists_eq_add_of_le' h
  rfl

theorem portRangesOk_iff (rec : Record32) :
    portRangesOk rec = true ↔ AdminRecord.param rec 5 1 ≤ 15 ∧ AdminRecord.param rec 8 4 ≤ 16777215 ∧
      AdminRecord.param rec 12 4 ≤ 65535 ∧ AdminRecord.param rec 16 4 ≤ 16777215 ∧
      AdminRecord.param rec 20 4 ≤ 16777215 := by
  simp only [portRangesOk, Bool.and_eq_true, decide_eq_true_eq, and_assoc]
  rfl

/-! ## What it does in each case (R122, R123) -/

theorem exec_setPortMode_taken {s : State} {rec : Record32} (h : Taken s rec .setPortMode) :
    exec (.setPortMode rec) s = .next (setPortMode rec (headPast s) (AdminRecord.id rec)) :=
  congrArg Host.Outcome.next (takeCommand_taken (setPortMode rec) h)

/-- No mode has a code above 2. -/
theorem setPortMode_noMode {rec : Record32} (s : State) (id : BitVec 16) (h : 2 < AdminRecord.param rec 4 1) :
    setPortMode rec s id = adminAnswer s id .invalidField 0 := by
  rw [setPortMode, portModeOf_none h]

/-- The other five ranges are checked before the mode is compared with the current one. -/
theorem setPortMode_outOfRange {rec : Record32} (s : State) (id : BitVec 16) (h : ¬ portRangesOk rec = true) :
    setPortMode rec s id = adminAnswer s id .invalidField 0 := by
  unfold setPortMode
  split
  · simp [h]
  · rfl

theorem setPortMode_sameMode {rec : Record32} {s : State} (id : BitVec 16) (hr : portRangesOk rec = true)
    (hm : AdminRecord.param rec 4 1 = s.own.mode.code) :
    setPortMode rec s id = adminAnswer { s with own := { s.own with params := paramsOf rec } } id .ok 0 := by
  simp [setPortMode, hm, portModeOf_code, hr]

/-- Settles O33, by the case of SET_PORT_MODE the fields select: no such mode, another field out of range, the current mode. -/
theorem setPortModeSame : Obligations.SetPortModeSame := by
  intro s rec ht good
  rw [exec_setPortMode_taken ht]
  refine ⟨fun hbad => ?_, fun ⟨_, hranges⟩ hm => ?_⟩
  · rcases Nat.lt_or_ge 2 (AdminRecord.param rec 4 1) with hmode | hmode
    · rw [setPortMode_noMode _ _ hmode, answered]
    · have hr : ¬ portRangesOk rec = true := fun hr => hbad ⟨hmode, (portRangesOk_iff rec).mp hr⟩
      rw [setPortMode_outOfRange _ _ hr, answered]
  · rw [setPortMode_sameMode (s := headPast s) _ ((portRangesOk_iff rec).mpr hranges) hm]
    rfl

end Sys2Proof.Machine
end

section
/-! PROOF. SET_ATTENTION (R153, R154): the codes of its fields, how the waiter list is judged, what it answers in each case, and
the statement of R153. -/

namespace Sys2Proof.Machine

open Sys2Proof.Safety

/-! ## The fields of the command (R153) -/

/-- The mode codes run from 0 to 2, and LEVEL's is 2. -/
theorem attnModeOf_of_le {v : Nat} (h : v ≤ 2) : ∃ m, attnModeOf v = some m ∧ (m = .level ↔ v = 2) := by
  interval_cases v
  · exact ⟨.off, rfl, by decide⟩
  · exact ⟨.edge, rfl, by decide⟩
  · exact ⟨.level, rfl, by decide⟩

theorem attnModeOf_none {v : Nat} (h : 2 < v) : attnModeOf v = none := by
  obtain ⟨k, rfl⟩ := Nat.exists_eq_add_of_le' h
  rfl

/-- The route codes are 0 and 1, and EVENT's is 0. -/
theorem attnRouteOf_of_le {v : Nat} (h : v ≤ 1) : ∃ r, attnRouteOf v = some r ∧ (r = .event ↔ v = 0) := by
  interval_cases v
  · exact ⟨.event, rfl, by decide⟩
  · exact ⟨.wait, rfl, by decide⟩

theorem attnRouteOf_none {v : Nat} (h : 1 < v) : attnRouteOf v = none := by
  obtain ⟨k, rfl⟩ := Nat.exists_eq_add_of_le' h
  rfl

/-! ## The waiter list under the new configuration (R154) -/

@[simp] theorem line_configureLine (s : State) (n : LineId) (m : AttnMode) (r : AttnRoute) :
    (configureLine s n m r).line n = { s.line n with mode := m, route := r, count := 0, saturated := false } :=
  line_setLine_self ..

@[simp] theorem setLine_configureLine (s : State) (n : LineId) (m : AttnMode) (r : AttnRoute) (l : AttnLine) :
    (configureLine s n m r).setLine n l = s.setLine n l := setLine_setLine ..

/-- A line is routed to WAIT in mode EDGE or LEVEL alone (R147). -/
theorem routed_eq_false_iff (l : AttnLine) : l.routed = false ↔ l.mode = .off ∨ l.route = .event := by
  unfold AttnLine.routed
  cases l.mode <;> cases l.route <;> decide

theorem judgeWaiters_notRouted {s : State} {n : LineId} (h : (s.line n).routed = false) :
    judgeWaiters s n = (refuseWaiters s n, (s.line n).waiters.length) := by
  simp [judgeWaiters, h]

theorem judgeWaiters_asserted {s : State} {n : LineId} (h : (s.line n).routed = true) (hm : (s.line n).mode = .level)
    (hl : (s.line n).level = true) : judgeWaiters s n = (releaseLine s n, (s.line n).waiters.length) := by
  simp [judgeWaiters, h, hm, hl]

theorem judgeWaiters_stay {s : State} {n : LineId} (h : (s.line n).routed = true)
    (hn : ¬ ((s.line n).mode = .level ∧ (s.line n).level = true)) : judgeWaiters s n = (s, 0) := by
  simp [judgeWaiters, h, hn]

/-- The waiters refused are failed by channel, in the order of the list. -/
theorem refuseWaiters_eq (s : State) (n : LineId) :
    refuseWaiters s n = ((s.line n).waiters.map fun w => w.chan).foldl
      (fun t c => endScript t c .attnNotRouted (ordinalOf t c) 0) (s.setLine n { s.line n with waiters := [] }) := by
  rw [List.foldl_map]
  rfl

/-- The waiters released are marked by channel, in the order of the list. -/
theorem releaseLine_eq (s : State) (n : LineId) :
    releaseLine s n = ((s.line n).waiters.map fun w => w.chan).foldl
      (fun t c => t.setProgress c (.released false)) (s.setLine n { s.line n with waiters := [] }) := by
  rw [List.foldl_map]
  rfl

/-! ## What it does in each case (R153, R154) -/

theorem exec_setAttention_taken {s : State} {rec : Record32} (h : Taken s rec .setAttention) :
    exec (.setAttention rec) s = .next (setAttention rec (headPast s) (AdminRecord.id rec)) :=
  congrArg Host.Outcome.next (takeCommand_taken (setAttention rec) h)

/-- A line, mode or route out of its range selects nothing. -/
theorem setAttention_outOfRange {rec : Record32} (s : State) (id : BitVec 16)
    (h : 7 < AdminRecord.param rec 4 1 ∨ 2 < AdminRecord.param rec 5 1 ∨ 1 < AdminRecord.param rec 6 1) :
    setAttention rec s id = adminAnswer s id .invalidField 0 := by
  unfold setAttention
  split
  next hline hmode hroute =>
    rcases h with h | h | h
    · simp [indexOf_none h] at hline
    · simp [attnModeOf_none h] at hmode
    · simp [attnRouteOf_none h] at hroute
  · rfl

section
variable {rec : Record32} {n : LineId} {m : AttnMode} {r : AttnRoute} (s : State) (id : BitVec 16)
  (hn : AdminRecord.param rec 4 1 = n.val) (hm : attnModeOf (AdminRecord.param rec 5 1) = some m)
  (hr : attnRouteOf (AdminRecord.param rec 6 1) = some r)
include hn hm hr

theorem setAttention_levelEvent (h : m = .level ∧ r = .event) :
    setAttention rec s id = adminAnswer s id .invalidField 0 := by
  simp [setAttention, indexOf_val hn, hm, hr, h]

variable (hpair : ¬ (m = .level ∧ r = .event))
include hpair

/-- An accepted command configures the line, then judges its waiters. -/
theorem setAttention_accepted :
    setAttention rec s id = settle (adminAnswer (judgeWaiters (configureLine s n m r) n).1 id .ok
      (BitVec.ofNat 32 (judgeWaiters (configureLine s n m r) n).2)) := by
  simp [setAttention, indexOf_val hn, hm, hr, hpair]

theorem setAttention_notRouted (h : m = .off ∨ r = .event) :
    setAttention rec s id = settle (adminAnswer (refuseWaiters (configureLine s n m r) n) id .ok
      (BitVec.ofNat 32 (s.line n).waiters.length)) := by
  have hrouted : ((configureLine s n m r).line n).routed = false := by simpa [routed_eq_false_iff] using h
  rw [setAttention_accepted s id hn hm hr hpair, judgeWaiters_notRouted hrouted, line_configureLine]

theorem setAttention_asserted (h : m = .level ∧ (s.line n).level = true) :
    setAttention rec s id = settle (adminAnswer (releaseLine (configureLine s n m r) n) id .ok
      (BitVec.ofNat 32 (s.line n).waiters.length)) := by
  obtain ⟨rfl, hlevel⟩ := h
  have hrouted : ((configureLine s n .level r).line n).routed = true := by
    simpa [← Bool.not_eq_false, routed_eq_false_iff] using hpair
  rw [setAttention_accepted s id hn hm hr hpair, judgeWaiters_asserted hrouted (by simp) (by simpa using hlevel),
    line_configureLine]

theorem setAttention_waitersStay (h : m = .edge ∧ r = .wait ∨ m = .level ∧ (s.line n).level = false) :
    setAttention rec s id = settle (adminAnswer (configureLine s n m r) id .ok 0) := by
  have hrouted : ((configureLine s n m r).line n).routed = true := by
    rw [← Bool.not_eq_false, routed_eq_false_iff, line_configureLine]
    rcases h with ⟨rfl, rfl⟩ | ⟨rfl, -⟩
    · simp
    · simpa using hpair
  have hreleased : ¬ (m = .level ∧ (s.line n).level = true) := by
    rcases h with ⟨rfl, -⟩ | ⟨-, hlevel⟩
    · simp
    · simp [hlevel]
  rw [setAttention_accepted s id hn hm hr hpair, judgeWaiters_stay hrouted (by simpa using hreleased)]
  rfl

end

/-- Settles O38, by the fields: out of range, LEVEL with EVENT, or accepted; then by how the waiter list is judged. -/
theorem setAttentionActs : Obligations.SetAttentionActs := by
  intro s rec ht good
  rw [exec_setAttention_taken ht]
  refine ⟨fun hbad => ?_, fun ⟨hn, hv, hw, hne⟩ => ?_, ?_⟩
  · by_cases hrange : 7 < AdminRecord.param rec 4 1 ∨ 2 < AdminRecord.param rec 5 1 ∨ 1 < AdminRecord.param rec 6 1
    · rw [setAttention_outOfRange _ _ hrange, answered]
    · obtain ⟨hn, hv, hw⟩ : AdminRecord.param rec 4 1 ≤ 7 ∧ AdminRecord.param rec 5 1 ≤ 2 ∧
          AdminRecord.param rec 6 1 ≤ 1 := by omega
      obtain ⟨m, hm, hlevel⟩ := attnModeOf_of_le hv
      obtain ⟨r, hr, hevent⟩ := attnRouteOf_of_le hw
      have hpair : m = .level ∧ r = .event := by
        rw [hlevel, hevent]
        exact by_contra fun hne => hbad ⟨hn, hv, hw, hne⟩
      rw [setAttention_levelEvent (n := ⟨_, Nat.lt_succ_of_le hn⟩) _ _ rfl hm hr hpair, answered]
  · obtain ⟨m, hm, hlevel⟩ := attnModeOf_of_le hv
    obtain ⟨r, hr, hevent⟩ := attnRouteOf_of_le hw
    rw [← hlevel, ← hevent] at hne
    exact ⟨_, _, congrArg Host.Outcome.next
      (setAttention_accepted (n := ⟨_, Nat.lt_succ_of_le hn⟩) _ _ rfl hm hr hne)⟩
  · intro n m r hn hm hr hpair
    refine ⟨fun h => ?_, fun h => ?_, fun h => ?_⟩
    · rw [setAttention_waitersStay (headPast s) _ hn hm hr hpair h]
      rfl
    · rw [setAttention_notRouted (headPast s) _ hn hm hr hpair h, refuseWaiters_eq, setLine_configureLine, line_configureLine,
        List.length_map, headPast_line]
    · rw [setAttention_asserted (headPast s) _ hn hm hr hpair h, releaseLine_eq, setLine_configureLine, line_configureLine,
        List.length_map, headPast_line]

end Sys2Proof.Machine
end

section
/-! PROOF. The vectors at each reset (R200): the values they take at power-on and when a bridge reset completes, and that nothing a
backplane reset brings about reaches the Interrupt Unit; and the statement of R200. -/

namespace Sys2Proof.Machine

/-! ## The values of a reset (R208, R210) -/

theorem vector_reset_of_vectors {t : State} (h : t.vectors = Vector.replicate 6 IntVector.reset) (v : VectorId) :
    (t.vector v).masked = true ∧ (t.vector v).waiting = false := by
  have hv : t.vector v = IntVector.reset := by simp [State.vector, h]
  rw [hv]
  exact ⟨rfl, rfl⟩

theorem execPowerOn_vectors {s t : State} (h : execPowerOn s = .next t) :
    t.vectors = Vector.replicate 6 IntVector.reset := by
  cases h
  rfl

/-- A bridge reset that makes the bridge READY has completed: where it does not complete, READY stays 0. -/
theorem execBridgeResetComplete_vectors {s t : State} (h : execBridgeResetComplete s = .next t) (hs : s.ready = false)
    (ht : t.ready = true) : t.vectors = Vector.replicate 6 IntVector.reset := by
  unfold execBridgeResetComplete at h
  cases h
  by_cases hc : (s.resetting && nothingInFlight s) = true
  · rw [if_pos hc]
    rfl
  · rw [if_neg hc, hs] at ht
    cases ht

theorem askVector_masked {s : State} {v : VectorId} (h : (s.vector v).masked = true) :
    askVector s v = s.setVector v { s.vector v with waiting := true } := by
  rw [askVector_eq, if_pos h]

/-! ## The end of a happening leaves the vectors, also where a region change acts (R74, R97) -/

@[simp] theorem adminAnswer_vectors (s : State) (id : BitVec 16) (st : AdminStatus) (d : Detail) :
    (adminAnswer s id st d).vectors = s.vectors := by
  obtain ⟨p, hp, -⟩ := adminAnswer_eq s id st d
  rw [hp, setProgressA_vectors]

@[simp] theorem adminDone_vectors (s : State) (on : AdminWait) (st : AdminStatus) (d : Detail) :
    (adminDone s on st d).vectors = s.vectors := by
  by_cases h : ∃ id, s.admin.progress = .waiting id on
  · obtain ⟨id, hid⟩ := h
    rw [adminDone_waiting st d hid, adminAnswer_vectors]
  · rw [adminDone_other st d (not_exists.mp h)]

@[simp] theorem waitingRegion_vectors (s : State) : (waitingRegion s).vectors = s.vectors := by
  unfold waitingRegion
  split
  · exact adminDone_vectors ..
  · rfl

@[simp] theorem afterDelivery_vectors (s : State) : (afterDelivery s).vectors = s.vectors := by
  rw [afterDelivery, (serve_kept _).vectors, (finishReleases_work _).vectors, waitingRegion_vectors,
    (waitingBreaks_kept s).vectors]

@[simp] theorem settle_vectors (s : State) : (settle s).vectors = s.vectors := by
  have hreleased : (finishReleases s).vectors = s.vectors := (finishReleases_work s).vectors
  unfold settle
  dsimp only
  split
  · exact hreleased
  · rw [afterDelivery_vectors, hreleased]

@[simp] theorem afterAccessInReset_vectors (s : State) : (afterAccessInReset s).vectors = s.vectors := by
  rw [afterAccessInReset, (serve_kept _).vectors, (resetPort_kept _).vectors, waitingRegion_vectors]

/-! ## A backplane reset leaves the vectors (R129, R130) -/

@[simp] theorem recordWrite_vectors (s : State) (f : InFlight) (o : AccessOutcome) :
    (recordWrite s f o).1.vectors = s.vectors := by
  unfold recordWrite
  split
  · split <;> rfl
  · rfl

@[simp] theorem endAccess_vectors (s : State) (f : InFlight) (o : AccessOutcome) : (endAccess s f o).vectors = s.vectors := by
  have hrecorded : (recordWrite (removeRecord s) f o).1.vectors = s.vectors := recordWrite_vectors ..
  unfold endAccess
  dsimp only
  split
  · rw [settle_vectors, (carrySteps_work ..).vectors, (deliver_work ..).vectors, hrecorded]
  · rw [afterAccessInReset_vectors, (waitOver_work ..).vectors, hrecorded]

@[simp] theorem boardsReset_vectors (s : State) (src : Nat) : (boardsReset s src).vectors = s.vectors :=
  (raiseEvent_kept ..).vectors

@[simp] theorem observeReset_vectors (s : State) : (observeReset s).vectors = s.vectors := by
  rw [observeReset, boardsReset_vectors]
  split
  · exact endAccess_vectors ..
  · rfl

@[simp] theorem brstAsserted_vectors (s : State) : (brstAsserted s).vectors = s.vectors := by
  unfold brstAsserted
  split
  · rfl
  · dsimp only
    split
    · rfl
    · exact observeReset_vectors _

@[simp] theorem answerPulse_vectors (s : State) (n : Nat) : (answerPulse s n).vectors = s.vectors := by
  unfold answerPulse
  split
  · exact adminDone_vectors ..
  · rfl

@[simp] theorem endPulse_vectors (s : State) : (endPulse s).vectors = s.vectors := by
  have hanswered (t : State) (n : Nat) (h : t.vectors = s.vectors) :
      (answerPulse (enterHolding (boardsReset t 0)) n).vectors = s.vectors := by
    rw [answerPulse_vectors, (enterHolding_kept _).vectors, boardsReset_vectors, h]
  unfold endPulse
  split
  · dsimp only
    rw [settle_vectors]
    split
    · rw [observeReset_vectors]
      exact hanswered _ _ rfl
    · exact hanswered _ _ rfl
  · rfl

/-- Settles O47, by the two resets that clear the vectors, an ask for a masked one, and the two backplane resets. -/
theorem vectorsAtResets : Obligations.VectorsAtResets := by
  refine ⟨vector_reset_of_vectors rfl, fun s t h => vector_reset_of_vectors (execPowerOn_vectors h),
    fun s t h hs ht => vector_reset_of_vectors (execBridgeResetComplete_vectors h hs ht), fun _ _ => askVector_masked,
    fun s => ?_⟩
  exact ⟨endPulse s, brstAsserted s, rfl, endPulse_vectors s, rfl, brstAsserted_vectors s⟩

end Sys2Proof.Machine
end

section
/-! PROOF. What every command keeps: the relations `Lawful`, `Steady` and `Held`, how they compose, and the single updates that
meet them. The laws of the queue, the rings, the link stacks, the counts, the holding set, the store and the table are all read
off them. -/

namespace Sys2Proof.Machine

open Sys2Proof.Safety

/-! ## The laws of one channel -/

/-- The law of the completion ring, for one channel (R3, R166). -/
def RingOk (ch : Channel) : Prop :=
  (∀ r, ch.rings = some r → r.unconsumed + (if ch.reserved then 1 else 0) ≤ r.cqSize) ∧ (Owes ch → ch.reserved = true)

/-- The law of the link stack, for one channel (R12, R13). -/
def LinkOk (ch : Channel) : Prop :=
  ∀ sc, ch.script = some sc → sc.links.length ≤ Config.linkDepth ∧ (sc.ending.isSome = true → sc.links = [] ∧ sc.current = none)

theorem ringInv_iff (s : State) : RingInv s ↔ ∀ c, RingOk (s.chan c) := Iff.rfl

theorem linkInv_iff (s : State) : LinkInv s ↔ ∀ c, LinkOk (s.chan c) := Iff.rfl

theorem ChanKept.ringOk {a b : Channel} (h : ChanKept a b) (k : RingOk a) : RingOk b := by
  obtain ⟨hsize, howes⟩ := k
  refine ⟨fun r hr => ?_, fun o => ?_⟩
  · have hrings : a.rings = some r := by
      rcases h.rings with e | e
      · exact e ▸ hr
      · rw [e] at hr; cases hr
    have hle := hsize r hrings
    have hres := h.reserved
    refine le_trans (Nat.add_le_add_left ?_ _) hle
    cases hb : b.reserved with
    | false => exact Nat.zero_le _
    | true => rw [hres hb]
  · obtain ⟨oa, e⟩ := h.owes o
    rw [e]; exact howes oa

theorem ChanKept.linkOk {a b : Channel} (h : ChanKept a b) (k : LinkOk a) : LinkOk b := by
  intro sc' hsc'
  obtain ⟨sc, hsc, hkept | ⟨hlinks, hcurrent, -⟩⟩ := h.links sc' hsc'
  · obtain ⟨hlinks, hending, hcurrent⟩ := hkept
    obtain ⟨hdepth, hend⟩ := k sc hsc
    refine ⟨?_, fun he => ?_⟩
    · rcases hlinks with e | ⟨-, hle | hle⟩
      · rw [e]; exact hdepth
      · exact hle.trans hdepth
      · exact hle
    · rw [hending] at he
      obtain ⟨hnil, hnone⟩ := hend he
      refine ⟨?_, ?_⟩
      · rcases hlinks with e | ⟨e, -⟩
        · rw [e]; exact hnil
        · rw [e] at he; cases he
      · cases hc : sc'.current with
        | none => rfl
        | some x =>
          rcases hcurrent (by rw [hc]; rfl) with y | y
          · rw [hnone] at y; cases y
          · rw [y] at he; cases he
  · exact ⟨by rw [hlinks]; exact Nat.zero_le _, fun _ => ⟨hlinks, hcurrent⟩⟩

/-! ## The relations -/

/-- The laws that hold of each part by itself, and the queue. -/
structure Lawful (s t : State) : Prop where
  pending : t.pending = s.pending
  countInv : CountInv s → CountInv t
  ringInv : RingInv s → RingInv t
  linkInv : LinkInv s → LinkInv t
  holdingInv : HoldingInv s → HoldingInv t

/-- The place of the admin rings and READY stay too: all commands but a reset and a write of ADMIN_BASE. -/
structure Steady (s t : State) : Prop extends Lawful s t where
  ready : t.ready = s.ready
  base : t.admin.ring.sqBase = s.admin.ring.sqBase

/-- The store and the table keep their law, and the table stays where no region change waits. -/
structure Tame (s t : State) : Prop extends Steady s t where
  store : StoreInv s → StoreInv t
  quiet : s.regionWait = none → t.regionWait = none ∧ t.regions = s.regions

/-- The table stays while an access is in flight too. -/
structure Calm (s t : State) : Prop extends Tame s t where
  held : s.arb.inflight.isSome = true → t.arb.inflight.isSome = true ∧ t.regions = s.regions

/-- The port keeps its law as well: all commands but those that act on the table, and the resets. -/
structure Ended (s t : State) : Prop extends Tame s t where
  port : PortInv s → PortInv t

/-- All of those commands but the ends of an access. -/
structure Held (s t : State) : Prop extends Calm s t where
  port : PortInv s → PortInv t

theorem Held.toEnded {s t : State} (h : Held s t) : Ended s t := ⟨h.toTame, h.port⟩

theorem Lawful.refl (s : State) : Lawful s s := ⟨rfl, id, id, id, id⟩

theorem Lawful.trans {s t u : State} (h : Lawful s t) (g : Lawful t u) : Lawful s u :=
  ⟨g.pending.trans h.pending, g.countInv ∘ h.countInv, g.ringInv ∘ h.ringInv, g.linkInv ∘ h.linkInv,
    g.holdingInv ∘ h.holdingInv⟩

theorem Steady.refl (s : State) : Steady s s := ⟨Lawful.refl s, rfl, rfl⟩

theorem Steady.trans {s t u : State} (h : Steady s t) (g : Steady t u) : Steady s u :=
  ⟨h.toLawful.trans g.toLawful, g.ready.trans h.ready, g.base.trans h.base⟩

theorem Tame.trans {s t u : State} (h : Tame s t) (g : Tame t u) : Tame s u where
  toSteady := h.toSteady.trans g.toSteady
  store := g.store ∘ h.store
  quiet := fun e => ⟨(g.quiet (h.quiet e).1).1, (g.quiet (h.quiet e).1).2.trans (h.quiet e).2⟩

theorem Calm.refl (s : State) : Calm s s := ⟨⟨Steady.refl s, id, fun h => ⟨h, rfl⟩⟩, fun h => ⟨h, rfl⟩⟩

theorem Calm.trans {s t u : State} (h : Calm s t) (g : Calm t u) : Calm s u where
  toTame := h.toTame.trans g.toTame
  held := fun e => ⟨(g.held (h.held e).1).1, (g.held (h.held e).1).2.trans (h.held e).2⟩

theorem Ended.trans {s t u : State} (h : Ended s t) (g : Ended t u) : Ended s u :=
  ⟨h.toTame.trans g.toTame, g.port ∘ h.port⟩

theorem Held.refl (s : State) : Held s s := ⟨Calm.refl s, id⟩

theorem Held.trans {s t u : State} (h : Held s t) (g : Held t u) : Held s u := ⟨h.toCalm.trans g.toCalm, g.port ∘ h.port⟩

/-! ## The law of the port -/

/-- The law of the port, but that a preemption waits behind an access in flight: what still holds as the access ends. -/
structure PortWeak (s : State) : Prop where
  inflight : s.arb.inflight.isSome = true → s.own.state = .holding
  lock : s.arb.lock.isSome = true → s.own.state = .holding
  legal : legalState s.own.mode s.own.state = true
  passage : s.own.passage.isSome = true → s.own.mode = .isolated
  reset : ∀ w, s.own.cmd = some (.reset w) → s.own.mode = .master
  due : s.own.preemptDue = true → s.own.mode = .guest ∧ (s.own.state = .holding ∨ s.own.state = .settling)

theorem portInv_iff (s : State) :
    PortInv s ↔ PortWeak s ∧ (s.own.preemptDue = true → s.arb.inflight.isSome = true) := by
  refine ⟨fun ⟨h1, h2, h3, h4, h5, h6⟩ => ⟨⟨h1, h2, h3, h4, h5, fun e => ⟨(h6 e).1, (h6 e).2.1⟩⟩, fun e => (h6 e).2.2⟩,
    fun ⟨h, k⟩ => ⟨h.inflight, h.lock, h.legal, h.passage, h.reset, fun e => ⟨(h.due e).1, (h.due e).2, k e⟩⟩⟩

theorem portWeak {s : State} (h : PortInv s) : PortWeak s := ((portInv_iff s).mp h).1

/-- Where no preemption waits the law of the port is the weak one. -/
theorem PortWeak.portInv {s : State} (h : PortWeak s) (k : s.own.preemptDue = false) : PortInv s :=
  (portInv_iff s).mpr ⟨h, fun e => by rw [k] at e; cases e⟩

/-- With no access in flight none waits. -/
theorem preemptDue_of_none {s : State} (h : PortInv s) (hf : s.arb.inflight = none) : s.own.preemptDue = false := by
  cases hd : s.own.preemptDue with
  | false => rfl
  | true => have := ((portInv_iff s).mp h).2 hd; rw [hf] at this; cases this

/-- What the law of the port reads of the state. -/
theorem portInv_congr {s t : State} (h1 : t.own = s.own) (h2 : t.arb.inflight = s.arb.inflight)
    (h3 : t.arb.lock = s.arb.lock) (h : PortInv s) : PortInv t := by
  unfold PortInv; rw [h1, h2, h3]; exact h

/-- What it reads of the Ownership Controller. -/
theorem portInv_own {s : State} {o : Ownership} (h1 : o.mode = s.own.mode) (h2 : o.state = s.own.state)
    (h3 : o.passage = s.own.passage) (h4 : o.cmd = s.own.cmd) (h5 : o.preemptDue = s.own.preemptDue) (h : PortInv s) :
    PortInv { s with own := o } := by
  unfold PortInv; rw [h1, h2, h3, h4, h5]; exact h

/-- The work of channels gives up the lock, or asks for the bus in RELEASED, where none is held. -/
theorem ChanWork.portWeak {s t : State} (k : ChanWork s t) (h : PortWeak s) : PortWeak t := by
  obtain ⟨st, lt, e, hst⟩ := k.own
  have hlock : t.arb.lock.isSome = true → s.arb.lock.isSome = true := fun hl => by
    rcases k.lock with e | e
    · rwa [e] at hl
    · rw [e] at hl; cases hl
  obtain ⟨h1, h2, h3, h4, h5, h6⟩ := h
  rcases hst with rfl | ⟨hmode, hstate, rfl⟩
  · refine ⟨?_, ?_, ?_, ?_, ?_, ?_⟩
    · rw [k.inflight, e]; exact h1
    · rw [e]; exact fun hl => h2 (hlock hl)
    · rw [e]; exact h3
    · rw [e]; exact h4
    · rw [e]; exact h5
    · rw [e]; exact h6
  · rw [hstate] at h1 h2 h6
    refine ⟨?_, ?_, ?_, ?_, ?_, ?_⟩
    · rw [k.inflight]; exact fun hf => by cases h1 hf
    · exact fun hl => by cases h2 (hlock hl)
    · rw [e]; simp [hmode, legalState]
    · rw [e]; exact h4
    · rw [e]; exact h5
    · rw [e]; exact fun hd => by rcases (h6 hd).2 with x | x <;> cases x

theorem ChanWork.preemptDue {s t : State} (k : ChanWork s t) : t.own.preemptDue = s.own.preemptDue := by
  obtain ⟨st, lt, e, -⟩ := k.own
  rw [e]

theorem ChanWork.portInv {s t : State} (k : ChanWork s t) (h : PortInv s) : PortInv t := by
  obtain ⟨hw, hd⟩ := (portInv_iff s).mp h
  exact (portInv_iff t).mpr ⟨k.portWeak hw, by rw [k.preemptDue, k.inflight]; exact hd⟩

/-! ## Updates that touch none of the parts the laws speak of -/

/-- What leaves the queue, lines, counters, channels and the Event Unit. -/
theorem Lawful.of_eq {s t : State} (hp : t.pending = s.pending) (ha : t.attn = s.attn) (hy : t.sync = s.sync)
    (hc : t.chans = s.chans) (he : t.events = s.events) : Lawful s t where
  pending := hp
  countInv := by unfold CountInv State.line State.counter; rw [ha, hy]; exact id
  ringInv := by unfold RingInv State.chan; rw [hc]; exact id
  linkInv := by unfold LinkInv State.chan; rw [hc]; exact id
  holdingInv := by unfold HoldingInv; rw [he]; exact id

/-- What the store law reads of the state. -/
theorem storeInv_congr {s t : State} (h1 : t.regions = s.regions) (h2 : t.shadow = s.shadow)
    (h3 : t.arb.inflight = s.arb.inflight) (h4 : t.regionWait = s.regionWait) (h5 : t.ready = s.ready)
    (h6 : t.cause = s.cause)
    (h7 : ∀ id, s.admin.progress = .waiting id .region → ∃ id, t.admin.progress = .waiting id .region)
    (h : StoreInv s) : StoreInv t := by
  obtain ⟨htable, hstore, hsnap, hwait, hset⟩ := h
  have hr : ∀ i, t.region i = s.region i := fun i => by simp only [State.region, h1]
  have hi : t.initialising = s.initialising := by simp only [State.initialising, h5, h6]
  refine ⟨?_, ?_, ?_, ?_, ?_⟩
  · simp only [TableLaw, hr]; exact htable
  · simp only [StoreLaw, hr, h2]; exact hstore
  · simp only [SnapshotLaw, hr, h3]; exact hsnap
  · rw [h4, h3, hi, h5]
    intro e
    obtain ⟨a, b, c⟩ := hwait e
    exact ⟨a, b, fun hready => (c hready).elim fun id hid => h7 id hid⟩
  · rw [h4]; simpa only [hr] using hset

/-- A change of the Ownership Controller, of which the laws of `Calm` say nothing. -/
theorem own_calm (s : State) (o : Ownership) : Calm s { s with own := o } where
  toSteady := ⟨Lawful.of_eq rfl rfl rfl rfl rfl, rfl, rfl⟩
  store := storeInv_congr rfl rfl rfl rfl rfl rfl fun id h => ⟨id, h⟩
  quiet := fun h => ⟨h, rfl⟩
  held := fun h => ⟨h, rfl⟩

/-- One that the law of the port does not read. -/
theorem own_held (s : State) (o : Ownership) (h1 : o.mode = s.own.mode) (h2 : o.state = s.own.state)
    (h3 : o.passage = s.own.passage) (h4 : o.cmd = s.own.cmd) (h5 : o.preemptDue = s.own.preemptDue) :
    Held s { s with own := o } := ⟨own_calm s o, portInv_own h1 h2 h3 h4 h5⟩

/-- A change of the admin rings that keeps their place, where no region change waits for its answer. -/
theorem admin_held (s : State) (a : Admin) (hb : a.ring.sqBase = s.admin.ring.sqBase)
    (hp : a.progress = s.admin.progress ∨ ∀ id, s.admin.progress ≠ .waiting id .region) :
    Held s { s with admin := a } where
  toSteady := ⟨Lawful.of_eq rfl rfl rfl rfl rfl, rfl, hb⟩
  store := storeInv_congr rfl rfl rfl rfl rfl rfl fun id h => by
    rcases hp with e | e
    · exact ⟨id, e.trans h⟩
    · exact absurd h (e id)
  quiet := fun h => ⟨h, rfl⟩
  held := fun h => ⟨h, rfl⟩
  port := id

/-- A change of the interrupt vectors. -/
theorem vectors_held (s : State) (v : Vector IntVector 6) : Held s { s with vectors := v } where
  toSteady := ⟨Lawful.of_eq rfl rfl rfl rfl rfl, rfl, rfl⟩
  store := storeInv_congr rfl rfl rfl rfl rfl rfl fun id h => ⟨id, h⟩
  quiet := fun h => ⟨h, rfl⟩
  held := fun h => ⟨h, rfl⟩
  port := id

/-- A change of CONTROL.ENABLE or of the timebase. -/
theorem clock_held (s : State) (b : Bool) (n : Time) : Held s { s with enable := b, timebase := n } where
  toSteady := ⟨Lawful.of_eq rfl rfl rfl rfl rfl, rfl, rfl⟩
  store := storeInv_congr rfl rfl rfl rfl rfl rfl fun id h => ⟨id, h⟩
  quiet := fun h => ⟨h, rfl⟩
  held := fun h => ⟨h, rfl⟩
  port := id

/-! ## The work of channels and of the port -/

theorem Kept.storeInv {s t : State} (k : Kept s t) (h : StoreInv s) : StoreInv t := by
  obtain ⟨htable, hstore, hsnap, hwait, hset⟩ := h
  have hr : ∀ i, t.region i = s.region i := fun i => by simp only [State.region, k.regions]
  have hi : t.initialising = s.initialising := by simp only [State.initialising, k.ready, k.cause]
  refine ⟨?_, ?_, ?_, ?_, ?_⟩
  · simp only [TableLaw, hr]; exact htable
  · simp only [StoreLaw, hr, k.shadow]; exact hstore
  · intro f hf
    rw [hr]
    rcases k.inflight with e | ⟨-, e⟩
    · exact hsnap f (e ▸ hf)
    · exact e f hf
  · rw [k.regionWait, hi, k.ready]
    intro e
    obtain ⟨hsome, hinit, hprogress⟩ := hwait e
    have hinflight : t.arb.inflight = s.arb.inflight := by
      rcases k.inflight with e | ⟨e, -⟩
      · exact e
      · rw [e] at hsome; cases hsome
    refine ⟨hinflight ▸ hsome, hinit, fun hready => ?_⟩
    obtain ⟨id, hid⟩ := hprogress hready
    rcases k.progress with e | ⟨_, on, e, hon⟩
    · exact ⟨id, e.trans hid⟩
    · rw [hid] at e; cases e; exact absurd rfl hon
  · rw [k.regionWait]; simpa only [hr] using hset

theorem Kept.countInv {s t : State} (k : Kept s t) (h : CountInv s) : CountInv t := by
  obtain ⟨hlines, hcounters⟩ := h
  refine ⟨fun n => ?_, fun j => ?_⟩
  · obtain ⟨hmode, hroute, -, hle⟩ := k.lines n
    obtain ⟨hmax, hzero⟩ := hlines n
    refine ⟨hle.trans hmax, fun hne => ?_⟩
    rw [hmode, hroute]
    exact hzero (by omega)
  · have := hcounters j
    rcases k.counters j with hle | hle
    · exact hle.trans this
    · exact hle

/-- The work of the port, the Event Unit apart. -/
theorem Kept.lawful {s t : State} (k : Kept s t) (he : HoldingInv s → HoldingInv t) : Lawful s t where
  pending := k.pending
  countInv := k.countInv
  ringInv := fun h c => (k.chans c).ringOk (h c)
  linkInv := fun h c => (k.chans c).linkOk (h c)
  holdingInv := he

theorem Kept.calm {s t : State} (k : Kept s t) (he : HoldingInv s → HoldingInv t) : Calm s t where
  toSteady := ⟨k.lawful he, k.ready, by rw [k.ring]⟩
  store := k.storeInv
  quiet := fun h => ⟨k.regionWait.trans h, k.regions⟩
  held := fun h => by
    refine ⟨?_, k.regions⟩
    rcases k.inflight with e | ⟨e, -⟩
    · rw [e]; exact h
    · rw [e] at h; cases h

theorem holdingInv_congr {s t : State} (h : t.events.holding = s.events.holding) (k : HoldingInv s) : HoldingInv t := by
  unfold HoldingInv; rw [h]; exact k

theorem ChanWork.held {s t : State} (k : ChanWork s t) : Held s t :=
  ⟨k.kept.calm (holdingInv_congr (by rw [k.events])), k.portInv⟩

/-! ## Updates of one part -/

/-- An update of one channel that keeps its two laws. -/
theorem setChan_held (s : State) (c : ChanId) (x : Channel) (hr : RingOk (s.chan c) → RingOk x)
    (hl : LinkOk (s.chan c) → LinkOk x) : Held s (s.setChan c x) where
  toSteady := by
    refine ⟨⟨rfl, id, fun h d => ?_, fun h d => ?_, id⟩, rfl, rfl⟩
    · by_cases e : d = c
      · subst e; rw [chan_setChan_self]; exact hr (h d)
      · rw [chan_setChan_ne s e]; exact h d
    · by_cases e : d = c
      · subst e; rw [chan_setChan_self]; exact hl (h d)
      · rw [chan_setChan_ne s e]; exact h d
  store := storeInv_congr rfl rfl rfl rfl rfl rfl fun id h => ⟨id, h⟩
  quiet := fun h => ⟨h, rfl⟩
  held := fun h => ⟨h, rfl⟩
  port := id

/-- An update of one line that keeps its count within the bounds. -/
theorem setLine_held (s : State) (n : LineId) (x : AttnLine)
    (h : ((s.line n).count ≤ Config.attnMax ∧ ((s.line n).count ≠ 0 → (s.line n).mode = .edge ∧ (s.line n).route = .wait)) →
      x.count ≤ Config.attnMax ∧ (x.count ≠ 0 → x.mode = .edge ∧ x.route = .wait)) : Held s (s.setLine n x) where
  toSteady := by
    refine ⟨⟨rfl, fun k => ⟨fun m => ?_, k.2⟩, id, id, id⟩, rfl, rfl⟩
    by_cases e : m = n
    · subst e; rw [line_setLine_self]; exact h (k.1 m)
    · rw [line_setLine_ne s e]; exact k.1 m
  store := storeInv_congr rfl rfl rfl rfl rfl rfl fun id h => ⟨id, h⟩
  quiet := fun h => ⟨h, rfl⟩
  held := fun h => ⟨h, rfl⟩
  port := id

/-- A change of the Event Unit that keeps the law of its holding set. -/
theorem events_held (s : State) (e : EventUnit) (h : HoldingInv s → HoldingInv { s with events := e }) :
    Held s { s with events := e } := ⟨(events_kept s e).calm h, id⟩

/-! ## Events (R189 to R191) -/

theorem startEventWrite_held (s : State) : Held s (startEventWrite s) := by
  rcases startEventWrite_cases s with h | ⟨r, rest, hr, -, h⟩
  · rw [h]; exact Held.refl s
  · rw [h]
    refine events_held s _ fun k => ?_
    unfold HoldingInv at k ⊢
    rw [hr, List.map_cons, List.nodup_cons] at k
    exact k.2

/-- A raise keeps one record of each pair (R189). -/
theorem holdingRaise_nodup {h : List EventRecord} (k : EventKind) (src : Nat) (d : Detail) (now : Time)
    (hn : (h.map fun r => (r.kind, r.source)).Nodup) :
    ((holdingRaise h k src d now).map fun r => (r.kind, r.source)).Nodup := by
  unfold holdingRaise
  split
  · rw [List.map_map]
    have e : ((fun r : EventRecord => (r.kind, r.source)) ∘ fun r : EventRecord =>
        if r.kind = k ∧ r.source = src then { r with occurrences := occurrencesAdd r.occurrences 1, detail := d } else r) =
        fun r => (r.kind, r.source) := by
      funext r; simp only [Function.comp]; split <;> rfl
    rw [e]; exact hn
  · rename_i hany
    rw [List.map_append, List.nodup_append]
    refine ⟨hn, by simp, ?_⟩
    intro x hx y hy hxy
    simp only [List.map_cons, List.map_nil, List.mem_singleton] at hy
    obtain ⟨r, hr, rfl⟩ := List.mem_map.mp hx
    rw [hy, Prod.mk.injEq] at hxy
    exact hany (List.any_eq_true.mpr ⟨r, hr, by simp [hxy]⟩)

theorem raiseEvent_held (s : State) (k : EventKind) (src : Nat) (d : Detail) : Held s (raiseEvent s k src d) :=
  (events_held s { s.events with holding := holdingRaise s.events.holding k src d s.timebase }
    (holdingRaise_nodup k src d s.timebase)).trans (startEventWrite_held _)

/-- A returned record takes the place of the held one of its pair (R191). -/
theorem holdingReturn_nodup {h : List EventRecord} (r : EventRecord)
    (hn : (h.map fun r => (r.kind, r.source)).Nodup) :
    ((holdingReturn h r).map fun r => (r.kind, r.source)).Nodup := by
  unfold holdingReturn
  split
  · rw [List.map_cons, List.nodup_cons]
    refine ⟨fun hm => ?_, (hn.sublist (List.filter_sublist.map _))⟩
    obtain ⟨y, hy, e⟩ := List.mem_map.mp hm
    rw [List.mem_filter] at hy
    simp only [Prod.mk.injEq] at e
    simp [e] at hy
  · rename_i hf
    rw [List.map_cons, List.nodup_cons]
    refine ⟨fun hm => ?_, hn⟩
    obtain ⟨y, hy, e⟩ := List.mem_map.mp hm
    simp only [Prod.mk.injEq] at e
    have := List.find?_eq_none.mp hf y hy
    simp [e] at this

end Sys2Proof.Machine
end

section
/-! PROOF. The operations of the port (Port.lean) under the relation `Held`: changes of mode, issue, service, breaks, region
changes, and the end of a happening. -/

namespace Sys2Proof.Machine

open Sys2Proof.Safety

/-! ## Changes of mode -/

/-- What a change of the port's ownership leaves: all that `Calm` names, and the access in flight. -/
structure Turned (s t : State) : Prop where
  toCalm : Calm s t
  toKept : Kept s t
  inflight_eq : t.arb.inflight = s.arb.inflight

theorem Turned.refl (s : State) : Turned s s := ⟨Calm.refl s, Kept.refl s, rfl⟩

theorem Turned.trans {s t u : State} (h : Turned s t) (g : Turned t u) : Turned s u :=
  ⟨h.toCalm.trans g.toCalm, h.toKept.trans g.toKept, g.inflight_eq.trans h.inflight_eq⟩

/-- Where it meets the law of the port, it meets all of `Held`. -/
theorem Turned.held {s t : State} (h : Turned s t) (p : PortInv s → PortInv t) : Held s t := ⟨h.toCalm, p⟩

theorem ChanWork.turned {s t : State} (h : ChanWork s t) : Turned s t := ⟨h.held.toCalm, h.kept, h.inflight⟩

/-- A change of the Ownership Controller that leaves the three levels. -/
theorem own_turned (s : State) (o : Ownership) (h : o.req = s.own.req ∧ o.gnt = s.own.gnt ∧ o.brst = s.own.brst) :
    Turned s { s with own := o } := ⟨own_calm s o, own_kept s o h, rfl⟩

theorem enterHolding_turned (s : State) : Turned s (enterHolding s) := own_turned s _ ⟨rfl, rfl, rfl⟩

theorem enterSettling_turned (s : State) : Turned s (enterSettling s) := by
  unfold enterSettling; split
  · exact enterHolding_turned s
  · exact own_turned s _ ⟨rfl, rfl, rfl⟩

theorem grant_turned (s : State) : Turned s (grant s) := own_turned s _ ⟨rfl, rfl, rfl⟩

theorem giveUp_turned (s : State) : Turned s (giveUp s) := by
  unfold giveUp
  refine Turned.trans ?_ (askBus_work _).turned
  exact own_turned s _ ⟨rfl, rfl, rfl⟩

theorem startPulse_turned (s : State) (w : Nat) : Turned s (startPulse s w) := own_turned s _ ⟨rfl, rfl, rfl⟩

theorem startLockTimer_turned (s : State) : Turned s (startLockTimer s) := by
  unfold startLockTimer; split
  · exact own_turned s _ ⟨rfl, rfl, rfl⟩
  · exact Turned.refl s

theorem leaveMode_turned (s : State) : Turned s (leaveMode s) := by
  unfold leaveMode
  refine Turned.trans ?_ (ChanWork.foldl _ isolateChan_work _ _).turned
  exact own_turned s _ ⟨rfl, rfl, rfl⟩

theorem enterMode_turned (s : State) (m : PortMode) : Turned s (enterMode s m) := by
  unfold enterMode
  refine (own_turned s { s.own with mode := m, passage := none, turnTimer := none } ⟨rfl, rfl, rfl⟩).trans ?_
  dsimp only
  split
  · exact Turned.refl _
  · split
    · exact grant_turned _
    · exact enterSettling_turned _
  · refine Turned.trans ?_ (askBus_work _).turned
    exact own_turned _ _ ⟨rfl, rfl, rfl⟩

theorem adminDone_turned (s : State) (on : AdminWait) (st : AdminStatus) (d : Detail) (h : on ≠ .region) :
    Turned s (adminDone s on st d) := (adminDone_work s on st d h).turned

theorem endPassage_turned (s : State) (m : PortMode) : Turned s (endPassage s m) := by
  unfold endPassage
  dsimp only
  split
  · refine Turned.trans ((enterMode_turned s m).trans ?_) (adminDone_turned _ .portMode .ok 0 (by simp))
    exact own_turned _ _ ⟨rfl, rfl, rfl⟩
  · exact enterMode_turned s m

theorem changeMode_turned (s : State) (m : PortMode) (p : PortParams) : Turned s (changeMode s m p) := by
  have passage (t : State) : Turned t
      (let u : State := { t with own := { t.own with passage := some m, answers := true, turnTimer := startTimer p.turnaround } }
       if p.turnaround = 0 then endPassage u m else u) := by
    dsimp only
    refine Turned.trans (own_turned t { t.own with
      passage := some m, answers := true, turnTimer := startTimer p.turnaround } ⟨rfl, rfl, rfl⟩) ?_
    split
    · exact endPassage_turned _ m
    · exact Turned.refl _
  unfold changeMode
  dsimp only
  refine (own_turned s { s.own with params := p, cmd := none, changeTimer := none, passage := none } ⟨rfl, rfl, rfl⟩).trans ?_
  split
  · exact (enterMode_turned _ m).trans (adminDone_turned _ .portMode .ok 0 (by simp))
  · refine (leaveMode_turned _).trans ?_
    split
    · exact adminDone_turned _ .portMode .ok 0 (by simp)
    · exact passage _

theorem changeIfWaiting_turned {s t : State} (h : changeIfWaiting s = some t) : Turned s t := by
  unfold changeIfWaiting at h
  split at h
  · cases h; exact changeMode_turned ..
  · cases h

/-! ## Changes of mode, under the law of the port -/

/-- The port moves, with no access in flight and no lock held, to a state its mode knows. -/
theorem portInv_moves {s : State} {o : Ownership} (hf : s.arb.inflight = none) (hl : s.arb.lock = none)
    (hlegal : legalState o.mode o.state = true) (hp : o.passage.isSome = true → o.mode = .isolated)
    (hc : ∀ w, o.cmd = some (.reset w) → o.mode = .master) (hd : o.preemptDue = false) :
    PortInv { s with own := o } :=
  PortWeak.portInv (s := { s with own := o })
    { inflight := fun e => absurd e (by simp [hf])
      lock := fun e => absurd e (by simp [hl])
      legal := hlegal
      passage := hp
      reset := hc
      due := fun e => absurd e (by simp [hd]) } hd

/-- The port is free to move: no access in flight, no lock, no preemption that waits, and no pulse. -/
structure PortFree (s : State) : Prop where
  inflight : s.arb.inflight = none
  lock : s.arb.lock = none
  due : s.own.preemptDue = false
  reset : ∀ w, s.own.cmd ≠ some (.reset w)

theorem PortFree.work {s t : State} (h : PortFree s) (k : ChanWork s t) : PortFree t where
  inflight := k.inflight.trans h.inflight
  lock := k.lock.elim (fun e => e.trans h.lock) id
  due := k.preemptDue.trans h.due
  reset := by obtain ⟨st, lt, e, -⟩ := k.own; rw [e]; exact h.reset

theorem PortFree.own {s : State} (h : PortFree s) {o : Ownership} (hd : o.preemptDue = s.own.preemptDue)
    (hc : o.cmd = s.own.cmd) : PortFree { s with own := o } :=
  ⟨h.inflight, h.lock, hd.trans h.due, by rw [hc]; exact h.reset⟩

theorem PortFree.portInv_own {s : State} (h : PortFree s) {o : Ownership} (hd : o.preemptDue = s.own.preemptDue)
    (hc : o.cmd = s.own.cmd) (hlegal : legalState o.mode o.state = true)
    (hp : o.passage.isSome = true → o.mode = .isolated) : PortInv { s with own := o } :=
  portInv_moves h.inflight h.lock hlegal hp (fun w e => absurd (hc ▸ e) (h.reset w)) (hd.trans h.due)

/-- An answer changes the Admin Processor alone, and not its rings. -/
theorem adminDone_frame (s : State) (on : AdminWait) (st : AdminStatus) (d : Detail) :
    ∃ a : Admin, a.ring = s.admin.ring ∧ adminDone s on st d = { s with admin := a } := by
  by_cases h : ∃ id, s.admin.progress = .waiting id on
  · obtain ⟨id, hid⟩ := h
    obtain ⟨p, hp, -⟩ := adminAnswer_eq s id st d
    exact ⟨{ s.admin with progress := p }, rfl, (adminDone_waiting st d hid).trans hp⟩
  · exact ⟨s.admin, rfl, adminDone_other st d (not_exists.mp h)⟩

theorem adminDone_port {s : State} (on : AdminWait) (st : AdminStatus) (d : Detail) (h : PortInv s) :
    PortInv (adminDone s on st d) := by
  obtain ⟨a, -, e⟩ := adminDone_frame s on st d
  rw [e]; exact h

theorem enterHolding_port {s : State} (h : PortInv s) (hm : s.own.mode ≠ .isolated) : PortInv (enterHolding s) := by
  obtain ⟨hw, hd⟩ := (portInv_iff s).mp h
  refine (portInv_iff _).mpr ⟨⟨fun _ => rfl, fun _ => rfl, ?_, hw.passage, hw.reset, fun e => ⟨(hw.due e).1, .inl rfl⟩⟩, hd⟩
  simp only [enterHolding]
  cases hmode : s.own.mode <;> simp [legalState, hmode] at hm ⊢

theorem enterSettling_port {s : State} (h : PortInv s) (hf : s.arb.inflight = none) (hl : s.arb.lock = none)
    (hm : s.own.mode ≠ .isolated) : PortInv (enterSettling s) := by
  unfold enterSettling
  split
  · exact enterHolding_port h hm
  · refine portInv_moves hf hl ?_ (portWeak h).passage (portWeak h).reset (preemptDue_of_none h hf)
    cases hmode : s.own.mode <;> simp [legalState, hmode] at hm ⊢

theorem grant_port {s : State} (h : PortInv s) (hf : s.arb.inflight = none) (hl : s.arb.lock = none)
    (hm : s.own.mode = .master) : PortInv (grant s) :=
  portInv_moves hf hl (by simp [legalState, hm]) (portWeak h).passage (portWeak h).reset (preemptDue_of_none h hf)

theorem startPulse_port {s : State} (w : Nat) (h : PortInv s) (hf : s.arb.inflight = none) (hl : s.arb.lock = none)
    (hm : s.own.mode = .master) : PortInv (startPulse s w) :=
  portInv_moves hf hl (by simp [legalState, hm]) (portWeak h).passage nofun (preemptDue_of_none h hf)

theorem giveUp_port {s : State} (h : PortInv s) (hf : s.arb.inflight = none) (hl : s.arb.lock = none)
    (hm : s.own.mode = .guest) : PortInv (giveUp s) :=
  (askBus_work _).portInv (portInv_moves (s := s) hf hl (by simp [legalState, hm]) (portWeak h).passage (portWeak h).reset
    (preemptDue_of_none h hf))

theorem startLockTimer_port {s : State} (h : PortInv s) : PortInv (startLockTimer s) := by
  unfold startLockTimer
  split
  · exact portInv_own rfl rfl rfl rfl rfl h
  · exact h

theorem enterMode_port {s : State} (m : PortMode) (h : PortFree s) (hst : s.own.state = .isolated) :
    PortInv (enterMode s m) := by
  unfold enterMode
  dsimp only
  have k : PortFree { s with own := { s.own with mode := m, passage := none, turnTimer := none } } := h.own rfl rfl
  split
  · exact h.portInv_own rfl rfl (by simp [hst, legalState]) nofun
  · split
    · exact h.portInv_own rfl rfl rfl nofun
    · unfold enterSettling
      split
      · exact h.portInv_own rfl rfl rfl nofun
      · exact h.portInv_own rfl rfl rfl nofun
  · exact (askBus_work _).portInv (h.portInv_own rfl rfl rfl nofun)

theorem endPassage_port {s : State} (m : PortMode) (h : PortFree s) (hst : s.own.state = .isolated) :
    PortInv (endPassage s m) := by
  have k := enterMode_port m h hst
  unfold endPassage
  dsimp only
  split
  · exact adminDone_port _ _ _ (portInv_own rfl rfl rfl rfl rfl k)
  · exact k

/-- The old mode left, the port is ISOLATED with no passage. -/
theorem leaveMode_free {s : State} (h : PortFree s) : PortFree (leaveMode s) ∧ (leaveMode s).own.mode = .isolated ∧
    (leaveMode s).own.state = .isolated ∧ (leaveMode s).own.passage = s.own.passage := by
  have k : ChanWork { s with own := { s.own with
      mode := .isolated, state := .isolated, turnTimer := none, leaseTimer := none, lockTimer := none,
      holdTimer := none, holdPassed := false } } (leaveMode s) := ChanWork.foldl _ isolateChan_work _ _
  refine ⟨PortFree.work (by exact h.own rfl rfl) k, ?_⟩
  obtain ⟨st, lt, e, rfl | ⟨hm, -, -⟩⟩ := k.own
  · rw [e]; exact ⟨rfl, rfl, rfl⟩
  · cases hm

theorem changeMode_port {s : State} (m : PortMode) (p : PortParams) (h : PortInv s) (hf : s.arb.inflight = none)
    (hl : s.arb.lock = none) : PortInv (changeMode s m p) := by
  have free : PortFree { s with own := { s.own with params := p, cmd := none, changeTimer := none, passage := none } } :=
    ⟨hf, hl, preemptDue_of_none (s := s) h hf, nofun⟩
  obtain ⟨hleft, hmode, hstate, hpass⟩ := leaveMode_free free
  unfold changeMode
  dsimp only
  split
  · rename_i hm
    refine adminDone_port _ _ _ (enterMode_port m free ?_)
    have := (portWeak h).legal
    rw [hm] at this
    simpa [legalState] using this
  · split
    · refine adminDone_port _ _ _ (portInv_moves (o := (leaveMode _).own) hleft.inflight hleft.lock ?_ ?_ ?_ hleft.due)
      · rw [hmode, hstate]; rfl
      · rw [hpass]; nofun
      · exact fun w e => absurd e (hleft.reset w)
    · have k : PortFree { leaveMode _ with own := { (leaveMode _).own with
          passage := some m, answers := true, turnTimer := startTimer p.turnaround } } := hleft.own rfl rfl
      split
      · exact endPassage_port m k hstate
      · exact hleft.portInv_own rfl rfl (by rw [hmode, hstate]; rfl) fun _ => hmode

theorem changeIfWaiting_port {s t : State} (hc : changeIfWaiting s = some t) (h : PortInv s) (hf : s.arb.inflight = none)
    (hl : s.arb.lock = none) : PortInv t := by
  unfold changeIfWaiting at hc
  split at hc
  · cases hc; exact changeMode_port _ _ h hf hl
  · cases hc

/-! ## Issue and service -/

@[simp] theorem takeLock_events (s : State) (c : ChanId) (m : Option LockKind) : (takeLock s c m).events = s.events := by
  unfold takeLock startLockTimer; split
  · dsimp only; split <;> rfl
  · rfl

theorem issue_events (s : State) (c : ChanId) : (issue s c).events = s.events := by
  unfold issue
  split
  · rfl
  · dsimp only
    split
    · rw [(failAccess_work ..).events]; rfl
    · simp only [beginAccess, (setWait_work ..).events, (markIssued_work ..).events, takeLock_events]; rfl

/-- A lock is taken where the port holds the bus (R86). -/
theorem takeLock_port {s : State} (c : ChanId) (m : Option LockKind) (h : PortInv s) (hst : s.own.state = .holding) :
    PortInv (takeLock s c m) ∧ (takeLock s c m).own.state = .holding := by
  unfold takeLock
  split
  · rename_i k _
    have hlocked : PortInv { s with arb := { s.arb with lock := some (c, k) } } := by
      obtain ⟨h1, -, h3⟩ := h
      exact ⟨h1, fun _ => hst, h3⟩
    refine ⟨startLockTimer_port hlocked, ?_⟩
    unfold startLockTimer
    split <;> exact hst
  · exact ⟨h, hst⟩

theorem beginAccess_port {s : State} (c : ChanId) (r : Request) (i : RegionId) (g : Region) (v : Option Value)
    (h : PortInv s) (hst : s.own.state = .holding) : PortInv (beginAccess s c r i g v) := by
  obtain ⟨hlocked, hstate⟩ := takeLock_port c r.mark h hst
  unfold beginAccess
  refine ((markIssued_work _ c).trans (setWait_work _ c .access)).portInv ?_
  obtain ⟨hw, -⟩ := (portInv_iff _).mp hlocked
  exact (portInv_iff _).mpr ⟨⟨fun _ => hstate, hw.lock, hw.legal, hw.passage, hw.reset, hw.due⟩, fun _ => rfl⟩

theorem issue_port {s : State} (c : ChanId) (h : PortInv s) (hst : s.own.state = .holding) : PortInv (issue s c) := by
  unfold issue
  split
  · exact h
  · dsimp only
    have k : PortInv { withdraw s c with arb := { (withdraw s c).arb with lastServed := c } } := h
    split
    · exact (failAccess_work _ c _).portInv k
    · exact beginAccess_port c _ _ _ _ k hst

theorem issue_held (s : State) (c : ChanId) (hst : s.own.state = .holding) (hf : s.arb.inflight = none) :
    Held s (issue s c) :=
  ⟨(issue_kept s c hf).calm (holdingInv_congr (by rw [issue_events])), fun h => issue_port c h hst⟩

theorem portOpen_holds {s : State} (h : portOpen s = true) : s.own.state = .holding ∧ s.arb.inflight = none := by
  simp only [portOpen, Bool.and_eq_true, Option.isNone_iff_eq_none, beq_iff_eq] at h
  exact h.1

theorem serveOne_held {s t : State} (h : serveOne s = some t) : Held s t := by
  unfold serveOne at h
  split at h
  · cases h
  · rename_i ho
    obtain ⟨hst, hf⟩ := portOpen_holds (s := s) (by simpa using ho)
    split at h
    · split at h
      · cases h; exact issue_held s _ hst hf
      · cases h
    · rename_i hl
      split at h
      · rename_i hm
        cases h; exact (grant_turned s).held fun p => grant_port p hf hl hm.1
      · split at h
        · cases h; exact (changeMode_turned ..).held fun p => changeMode_port _ _ p hf hl
        · rename_i hcmd
          cases h; exact (startPulse_turned ..).held fun p => startPulse_port _ p hf hl ((portWeak p).reset _ hcmd)
        · split at h
          · rename_i hm
            cases h; exact (giveUp_turned s).held fun p => giveUp_port p hf hl hm.1
          · split at h
            · cases h; exact issue_held s _ hst hf
            · split at h
              · rename_i hm
                cases h; exact (giveUp_turned s).held fun p => giveUp_port p hf hl hm.1
              · cases h

theorem serveRounds_held (n : Nat) (s : State) : Held s (serveRounds n s) := by
  induction n generalizing s with
  | zero => exact Held.refl s
  | succ n ih =>
    unfold serveRounds
    split
    · rename_i s' h
      exact (serveOne_held h).trans (ih s')
    · exact Held.refl s

theorem serve_held (s : State) : Held s (serve s) := serveRounds_held 8 s

/-! ## Breaks and preemption -/

theorem raiseEvent_turned (s : State) (k : EventKind) (src : Nat) (d : Detail) : Turned s (raiseEvent s k src d) :=
  ⟨(raiseEvent_held ..).toCalm, raiseEvent_kept .., by obtain ⟨e, he⟩ := raiseEvent_frame s k src d; rw [he]⟩

theorem preempt_turned (s : State) : Turned s (preempt s) := by
  unfold preempt
  dsimp only
  have k : Turned s (raiseEvent { breakLock s with own := { (breakLock s).own with
      state := .released, holdTimer := none, turnTimer := none, holdPassed := false, preemptDue := false } } .preempted 0 0) := by
    refine Turned.trans ((breakLock_work s).turned.trans ?_) (raiseEvent_turned _ .preempted 0 0)
    exact own_turned _ _ ⟨rfl, rfl, rfl⟩
  refine k.trans ?_
  split
  · rename_i h
    exact changeIfWaiting_turned h
  · exact (askBus_work _).turned

theorem waitingBreaks_turned (s : State) : Turned s (waitingBreaks s) := by
  have h (t : State) : Turned t (if t.own.preemptDue then preempt t else t) := by
    split
    · exact preempt_turned t
    · exact Turned.refl t
  unfold waitingBreaks
  refine Turned.trans ?_ (h _)
  split
  · refine Turned.trans ?_ (breakLock_work _).turned
    exact own_turned s _ ⟨rfl, rfl, rfl⟩
  · exact Turned.refl s

/-- A break leaves the port with no lock. -/
theorem breakLock_lock (s : State) : (breakLock s).arb.lock = none := by
  unfold breakLock
  split
  · rename_i h _ _
    exact ((withdraw_work (clearLock s) h).trans (lockBroken_work _ h)).lock.elim id id
  · assumption

theorem preempt_port {s : State} (h : PortWeak s) (hf : s.arb.inflight = none) (hm : s.own.mode = .guest) :
    PortInv (preempt s) := by
  have hw := (breakLock_work s).portWeak h
  have hfb : (breakLock s).arb.inflight = none := (breakLock_work s).inflight.trans hf
  have hmb : (breakLock s).own.mode = .guest := by
    obtain ⟨st, lt, e, -⟩ := (breakLock_work s).own
    rw [e]; exact hm
  unfold preempt
  dsimp only
  have k : PortInv { breakLock s with own := { (breakLock s).own with
      state := .released, holdTimer := none, turnTimer := none, holdPassed := false, preemptDue := false } } :=
    portInv_moves hfb (breakLock_lock s) (by simp [legalState, hmb]) hw.passage hw.reset rfl
  obtain ⟨e, he⟩ := raiseEvent_frame { breakLock s with own := { (breakLock s).own with
      state := .released, holdTimer := none, turnTimer := none, holdPassed := false, preemptDue := false } } .preempted 0 0
  have kr := portInv_congr (t := { breakLock s with events := e, own := { (breakLock s).own with
      state := .released, holdTimer := none, turnTimer := none, holdPassed := false, preemptDue := false } }) rfl rfl rfl k
  rw [he]
  split
  · rename_i hc
    exact changeIfWaiting_port hc kr hfb (breakLock_lock s)
  · exact (askBus_work _).portInv kr

/-- With no access in flight no break waits behind this. -/
theorem waitingBreaks_port {s : State} (h : PortWeak s) (hf : s.arb.inflight = none) : PortInv (waitingBreaks s) := by
  have broken : ∀ t, PortWeak t → t.arb.inflight = none → PortInv (if t.own.preemptDue then preempt t else t) := by
    intro t ht hft
    split
    · rename_i hd
      exact preempt_port ht hft (ht.due hd).1
    · rename_i hd
      exact ht.portInv (by simpa using hd)
  unfold waitingBreaks
  split
  · have k := breakLock_work { s with own := { s.own with breakDue := false } }
    exact broken _ (k.portWeak ⟨h.inflight, h.lock, h.legal, h.passage, h.reset, h.due⟩) (k.inflight.trans hf)
  · exact broken s h hf

/-! ## Region changes (R96 to R99) -/

/-- The window a change brings overlaps no other (R96). -/
def RegionChange.Fits (s : State) : RegionChange → Prop
  | .set i g => ∀ j h, j ≠ i → s.region j = some h → h.overlaps g = false
  | .clear _ => True

/-- The entry a change leaves at its index (R98, R99). -/
def RegionChange.entry : RegionChange → Option Region
  | .set _ g => some g
  | .clear _ => none

theorem changedTable_table (t : Vector (Option Region) 16) (ch : RegionChange) :
    (changedTable t ch).1 = t.set ch.index ch.entry := by
  cases ch <;> rfl

/-- The law of the store and of the table, without the law of a change that waits. -/
structure TableOk (s : State) : Prop where
  table : TableLaw s
  store : StoreLaw s
  snapshot : SnapshotLaw s

theorem applyRegion_eq (s : State) (ch : RegionChange) : ∃ a : Admin,
    a.ring = s.admin.ring ∧ applyRegion s ch = { s with
      admin := a, regions := s.regions.set ch.index ch.entry, regionWait := none,
      shadow := s.shadow.filter (changeKeeps (s.regions.set ch.index ch.entry) (changedTable s.regions ch).2) } := by
  unfold applyRegion
  dsimp only
  rw [changedTable_table]
  obtain ⟨a, ha, e⟩ := adminDone_frame { s with
    regions := s.regions.set ch.index ch.entry, regionWait := none,
    shadow := (shadowPurge s.shadow (changeKeeps (s.regions.set ch.index ch.entry) (changedTable s.regions ch).2)).1 }
    .region .ok (BitVec.ofNat 32
      (shadowPurge s.shadow (changeKeeps (s.regions.set ch.index ch.entry) (changedTable s.regions ch).2)).2)
  exact ⟨a, ha, e⟩

theorem region_set (s : State) (i j : RegionId) (x : Option Region) :
    (s.regions.set i x)[j] = if j = i then x else s.region j := by
  by_cases h : j = i
  · subst h; simp
  · have : i.val ≠ j.val := fun e => h (Fin.ext e.symm)
    simp [h, this, State.region]

/-- An entry that a purge keeps lies in the window its index names (R98). -/
theorem changeKeeps_inside {s : State} {ch : RegionChange} (ht : TableLaw s) {e : ShadowEntry}
    (he : ∃ g, s.region e.index = some g ∧ g.rights = .writeOnlyShadowed ∧ g.holds e.addr = true)
    (hk : shadowedAt (s.regions.set ch.index ch.entry) e.addr = true) :
    ∃ g, (s.regions.set ch.index ch.entry)[e.index] = some g ∧ g.rights = .writeOnlyShadowed ∧ g.holds e.addr = true := by
  obtain ⟨g, hg, hrights, hholds⟩ := he
  by_cases hi : e.index = ch.index
  · unfold shadowedAt at hk
    split at hk
    · rename_i k g' hlookup
      obtain ⟨hentry, hinside⟩ := lookup_some hlookup
      by_cases hki : k = ch.index
      · exact ⟨g', by rw [region_set, if_pos hki] at hentry; rw [region_set, if_pos hi]; exact hentry, by simpa using hk, hinside⟩
      · rw [region_set, if_neg hki] at hentry
        have := ht k e.index g' g (by rw [hi]; exact hki) hentry hg
        rw [overlaps_of_holds hinside hholds] at this
        cases this
    · cases hk
  · exact ⟨g, by rw [region_set, if_neg hi]; exact hg, hrights, hholds⟩

/-- A region change that names no access in flight keeps the law (R96 to R99). -/
theorem applyRegion_storeInv {s : State} {ch : RegionChange} (h : TableOk s) (hfit : ch.Fits s)
    (hbusy : ∀ f, s.arb.inflight = some f → f.index ≠ ch.index) : StoreInv (applyRegion s ch) := by
  obtain ⟨a, -, e⟩ := applyRegion_eq s ch
  rw [e]
  have hr (j : RegionId) : State.region { s with
      admin := a, regions := s.regions.set ch.index ch.entry, regionWait := none,
      shadow := s.shadow.filter (changeKeeps (s.regions.set ch.index ch.entry) (changedTable s.regions ch).2) } j =
      if j = ch.index then ch.entry else s.region j := region_set s ch.index j ch.entry
  refine ⟨?_, ⟨?_, ?_, ?_⟩, ?_, nofun, nofun⟩
  · intro i j g k hij hi hj
    rw [hr] at hi hj
    have fits (b : RegionId) (x y : Region) (hb : b ≠ ch.index) (hx : ch.entry = some x) (hy : s.region b = some y) :
        y.overlaps x = false := by
      cases ch with
      | set i g => cases hx; exact hfit b y hb hy
      | clear i => cases hx
    split at hi
    · rename_i ei
      rw [if_neg (by rw [← ei]; exact hij.symm)] at hj
      rw [overlaps_comm]
      exact fits j g k (by rw [← ei]; exact hij.symm) hi hj
    · rename_i ei
      split at hj
      · exact fits i k g ei hj hi
      · exact h.table i j g k hij hi hj
  · exact (List.length_filter_le _ _).trans h.store.1
  · exact h.store.2.1.sublist (List.filter_sublist.map _)
  · intro x hx
    rw [List.mem_filter] at hx
    obtain ⟨hmem, hkeep⟩ := hx
    simp only [changeKeeps, Bool.and_eq_true] at hkeep
    exact changeKeeps_inside h.table (h.store.2.2 x hmem) hkeep.1
  · intro f hf
    rw [hr, if_neg (hbusy f hf)]
    exact h.snapshot f hf

theorem applyRegion_steady (s : State) (ch : RegionChange) : Steady s (applyRegion s ch) := by
  obtain ⟨a, ha, e⟩ := applyRegion_eq s ch
  rw [e]
  exact ⟨Lawful.of_eq rfl rfl rfl rfl rfl, rfl, by rw [ha]⟩

theorem waitingRegion_steady (s : State) : Steady s (waitingRegion s) := by
  unfold waitingRegion
  split
  · exact applyRegion_steady ..
  · exact Steady.refl s

theorem waitingRegion_self {s : State} (h : s.regionWait = none) : waitingRegion s = s := by
  unfold waitingRegion; rw [h]

/-- The law of the store and of the table once the access a change waited for has ended (R74 step 4). -/
structure Loosened (s : State) : Prop extends TableOk s where
  inflight : s.arb.inflight = none
  fits : ∀ ch, s.regionWait = some ch → ch.Fits s

theorem Loosened.turned {s t : State} (h : Loosened s) (k : Kept s t) (hf : t.arb.inflight = s.arb.inflight) : Loosened t := by
  have hr : ∀ i, t.region i = s.region i := fun i => by simp only [State.region, k.regions]
  refine ⟨⟨?_, ?_, ?_⟩, hf.trans h.inflight, ?_⟩
  · simp only [TableLaw, hr]; exact h.table
  · simp only [StoreLaw, hr, k.shadow]; exact h.store
  · simp only [SnapshotLaw, hr, hf]; exact h.snapshot
  · intro ch hch
    rw [k.regionWait] at hch
    have := h.fits ch hch
    cases ch with
    | set i g => simp only [RegionChange.Fits, hr]; exact this
    | clear i => trivial

/-- The waiting change acts, and none waits behind it. -/
theorem Loosened.waitingRegion {s : State} (h : Loosened s) : StoreInv (waitingRegion s) := by
  unfold Machine.waitingRegion
  split
  · rename_i ch hch
    exact applyRegion_storeInv h.toTableOk (h.fits ch hch) fun f hf => by rw [h.inflight] at hf; cases hf
  · rename_i hnone
    refine ⟨h.table, h.store, h.snapshot, ?_, ?_⟩
    · rw [hnone]; nofun
    · rw [hnone]; nofun

theorem loosened_of_storeInv {s : State} (h : StoreInv s) (hf : s.arb.inflight = none) : Loosened s := by
  obtain ⟨htable, hstore, hsnap, -, hset⟩ := h
  refine ⟨⟨htable, hstore, hsnap⟩, hf, fun ch hch => ?_⟩
  cases ch with
  | set i g => exact hset i g hch
  | clear i => trivial

/-! ## The end of a happening (R74, R82) -/

theorem waitingRegion_port {s : State} (h : PortInv s) : PortInv (waitingRegion s) := by
  unfold waitingRegion
  split
  · rename_i ch _
    obtain ⟨a, -, e⟩ := applyRegion_eq s ch
    rw [e]; exact h
  · exact h

theorem afterDelivery_port {s : State} (h : PortWeak s) (hf : s.arb.inflight = none) : PortInv (afterDelivery s) :=
  (serve_held _).port ((finishReleases_work _).portInv (waitingRegion_port (waitingBreaks_port h hf)))

theorem afterDelivery_steady (s : State) : Steady s (afterDelivery s) :=
  (((waitingBreaks_turned s).toCalm.toSteady.trans (waitingRegion_steady _)).trans
    (finishReleases_work _).held.toSteady).trans (serve_held _).toSteady

theorem afterDelivery_storeInv {s : State} (h : Loosened s) : StoreInv (afterDelivery s) :=
  (serve_held _).store ((finishReleases_work _).held.store
    (h.turned (waitingBreaks_turned s).toKept (waitingBreaks_turned s).inflight_eq).waitingRegion)

theorem afterDelivery_calm_of_none {s : State} (h : s.regionWait = none) : Calm s (afterDelivery s) := by
  unfold afterDelivery
  have b := waitingBreaks_turned s
  rw [waitingRegion_self (b.toKept.regionWait.trans h)]
  exact (b.toCalm.trans (finishReleases_work _).held.toCalm).trans (serve_held _).toCalm

/-- With no access in flight, the end of a happening is what follows at the port. -/
theorem settle_open {s : State} (h : s.arb.inflight = none) : settle s = afterDelivery (finishReleases s) := by
  unfold settle
  dsimp only
  rw [if_neg]
  rw [(finishReleases_work s).inflight, h]
  simp

theorem settle_calm_of_none {s : State} (h : s.regionWait = none) : Calm s (settle s) := by
  have k := (finishReleases_work s).held.toCalm
  cases hf : s.arb.inflight with
  | some f => rw [settle_held (by rw [hf]; rfl)]; exact k
  | none => rw [settle_open hf]; exact k.trans (afterDelivery_calm_of_none (k.quiet h).1)

theorem settle_port_of_weak {s : State} (h : PortWeak s) (hf : s.arb.inflight = none) : PortInv (settle s) := by
  rw [settle_open hf]
  exact afterDelivery_port ((finishReleases_work s).portWeak h) ((finishReleases_work s).inflight.trans hf)

theorem settle_steady (s : State) : Steady s (settle s) := by
  have k := (finishReleases_work s).held.toSteady
  cases hf : s.arb.inflight with
  | some f => rw [settle_held (by rw [hf]; rfl)]; exact k
  | none => rw [settle_open hf]; exact k.trans (afterDelivery_steady _)

theorem settle_storeInv_of_loosened {s : State} (h : Loosened s) : StoreInv (settle s) := by
  rw [settle_open h.inflight]
  exact afterDelivery_storeInv (h.turned (finishReleases_work s).kept (finishReleases_work s).inflight)

theorem settles_held (s : State) : Held s (settle s) where
  toSteady := settle_steady s
  store := fun h => by
    cases hf : s.arb.inflight with
    | none => exact settle_storeInv_of_loosened (loosened_of_storeInv h hf)
    | some f => rw [settle_held (by rw [hf]; rfl)]; exact (finishReleases_work s).held.store h
  quiet := fun h => (settle_calm_of_none h).quiet h
  held := fun h => by rw [settle_held h]; exact (finishReleases_work s).held.held h
  port := fun h => by
    cases hf : s.arb.inflight with
    | none => exact settle_port_of_weak (portWeak h) hf
    | some f => rw [settle_held (by rw [hf]; rfl)]; exact (finishReleases_work s).portInv h

end Sys2Proof.Machine
end

section
/-! PROOF. The admin commands, and the admin queue, under the relation `Held`. -/

namespace Sys2Proof.Machine

open Sys2Proof.Safety

/-! ## The Admin Processor -/

/-- A command's read is in flight (R178). -/
def Reading (s : State) : Prop := ∃ a, s.admin.progress = .reading a

/-- No command waits for a region change. -/
def NotRegion (s : State) : Prop := ∀ id, s.admin.progress ≠ .waiting id .region

theorem Reading.notRegion {s : State} (h : Reading s) : NotRegion s := by
  obtain ⟨a, ha⟩ := h
  intro id e
  rw [ha] at e; cases e

theorem ChanWork.reading {s t : State} (k : ChanWork s t) (h : Reading s) : Reading t := by
  obtain ⟨a, ha⟩ := h
  rcases k.progress with e | ⟨_, _, e, -⟩
  · exact ⟨a, e.trans ha⟩
  · rw [ha] at e; cases e

theorem setProgressA_held {s : State} (p : AdminProgress) (h : NotRegion s) : Held s (s.setProgressA p) :=
  admin_held s _ rfl (.inr h)

theorem adminAnswer_held {s : State} (id : BitVec 16) (st : AdminStatus) (d : Detail) (h : NotRegion s) :
    Held s (adminAnswer s id st d) := by
  obtain ⟨p, e, -⟩ := adminAnswer_eq s id st d
  rw [e]; exact setProgressA_held p h

theorem adminDone_held (s : State) (on : AdminWait) (st : AdminStatus) (d : Detail) (h : on ≠ .region) :
    Held s (adminDone s on st d) := (adminDone_work s on st d h).held

theorem setAdminFault_held (s : State) : Held s (setAdminFault s) := admin_held s _ rfl (.inl rfl)

/-- A command taken changes what its effect changes, on the state with the head advanced (R178, R179). -/
theorem takeCommand_held {rec : Record32} {k : AdminCode} {act : State → BitVec 16 → State} (s : State)
    (h : ∀ s id, s.ready = true → Reading s → Held s (act s id)) : Held s (takeCommand s rec k act) := by
  unfold takeCommand
  split
  · rename_i a ha
    have hread : Reading s := ⟨a, ha⟩
    split
    · rename_i hready
      refine Held.trans (t := headPast s) (admin_held s _ rfl (.inl rfl)) ?_
      split
      · exact h (headPast s) _ hready ⟨a, ha⟩
      · exact adminAnswer_held (s := headPast s) _ _ _ (Reading.notRegion ⟨a, ha⟩)
    · exact setProgressA_held _ hread.notRegion
  · exact Held.refl s

theorem channelCommand_held {rec : Record32} {k : AdminCode} {allowed : ChanState → Bool} {inRange : Bool}
    {run : ChanId → State → BitVec 16 → State} (s : State)
    (h : ∀ c s id, Reading s → allowed (s.chan c).st = true → inRange = true → Held s (run c s id)) :
    Held s (channelCommand rec k allowed inRange run s) := by
  unfold channelCommand
  refine takeCommand_held s fun s id _ hread => ?_
  split
  · exact adminAnswer_held _ _ _ hread.notRegion
  · rename_i c _
    split
    · exact adminAnswer_held _ _ _ hread.notRegion
    · rename_i ha
      split
      · exact adminAnswer_held _ _ _ hread.notRegion
      · rename_i hi
        exact h c s id hread (by simpa using ha) (by simpa using hi)

/-! ## Channels -/

/-- An update of state, wait reason, timer and abort, not out of FAULTED. -/
theorem ChanKept.state (a b : Channel) (h1 : b.rings = a.rings) (h2 : b.reserved = a.reserved)
    (h3 : a.st = .faulted → b.st = .faulted) (h4 : b.script = a.script) (h5 : b.data = a.data) : ChanKept a b where
  rings := .inl h1
  reserved := by rw [h2]; exact id
  owes := fun h => ⟨⟨fun e => h.1 (h3 e), by rw [← h4, ← h5]; exact h.2⟩, h2⟩
  links := fun sc' e => ⟨sc', by rw [← h4]; exact e, .inl ⟨.inl rfl, rfl, .inl⟩⟩

/-- The channel is not FAULTED. -/
theorem state_work (s : State) (c : ChanId) (x : Channel) (hst : (s.chan c).st ≠ .faulted)
    (h1 : x.rings = (s.chan c).rings) (h2 : x.reserved = (s.chan c).reserved) (h4 : x.script = (s.chan c).script)
    (h5 : x.data = (s.chan c).data) : ChanWork s (s.setChan c x) :=
  ChanWork.chan s c (ChanKept.state _ _ h1 h2 (fun e => absurd e hst) h4 h5)

theorem configure_held (rec : Record32) (c : ChanId) (s : State) (id : BitVec 16) (hread : Reading s)
    (hst : configureAllowed (s.chan c).st = true) (hrange : configureInRange rec = true) :
    Held s (configure rec c s id) := by
  have hnf : (s.chan c).st ≠ .faulted := by intro e; rw [e] at hst; cases hst
  have hsize : 1 ≤ AdminRecord.param rec 8 2 := by
    simp only [configureInRange, ringSizeOk, Bool.and_eq_true, decide_eq_true_eq] at hrange
    omega
  unfold configure
  dsimp only
  refine Held.trans ?_ (adminAnswer_held _ _ _ (Reading.notRegion (s := s.modChan c _) hread))
  refine setChan_held s c _ (fun k => ⟨fun r hr => ?_, fun o => k.2 ⟨hnf, o.2⟩⟩) (fun k => k)
  cases hr
  dsimp only [RingPair.configured]
  split <;> omega

theorem enterIdle_work (s : State) (c : ChanId) (hst : (s.chan c).st ≠ .faulted) : ChanWork s (s.modChan c enterIdle) :=
  state_work s c _ hst rfl rfl rfl rfl

theorem resumeStep_work (s : State) (c : ChanId) (st : Step) : ChanWork s (resumeStep s c st) := by
  unfold resumeStep
  split
  · exact (setProgress_work ..).trans (act_work ..)
  · exact act_work ..

theorem resume_work (s : State) (c : ChanId) (hst : (s.chan c).st ≠ .faulted) : ChanWork s (resume s c) := by
  unfold resume
  dsimp only
  refine ChanWork.trans (t := s.modChan c fun ch => { ch with st := .running, wait := .none })
    (state_work s c _ hst rfl rfl rfl rfl) (ChanWork.trans ?_ (startFetch_work _ c))
  split
  · exact resumeStep_work ..
  · exact startNext_work ..

theorem start_held (c : ChanId) (s : State) (id : BitVec 16) (hread : Reading s)
    (hst : startAllowed (s.chan c).st = true) : Held s (start c s id) := by
  have hnf : (s.chan c).st ≠ .faulted := by intro e; rw [e] at hst; cases hst
  unfold start
  split
  · split
    · exact setProgressA_held _ hread.notRegion
    · have k := resume_work s c hnf
      exact (k.held.trans (adminAnswer_held id .ok 0 (k.reading hread).notRegion)).trans (settles_held _)
  · have k := enterIdle_work s c hnf
    exact k.held.trans (adminAnswer_held id .ok 0 (k.reading hread).notRegion)

theorem cutOff_work (s : State) (c : ChanId) : ChanWork s (cutOff s c) := by
  unfold cutOff
  refine ChanWork.trans (ChanWork.trans (withdraw_work s c) ?_) (leaveLists_work _ c)
  exact ChanWork.chan _ c (ChanKept.outer _ _ rfl rfl rfl rfl rfl)

theorem pause_held (c : ChanId) (s : State) (id : BitVec 16) (hread : Reading s) : Held s (pause c s id) := by
  unfold pause
  split
  · rename_i hst
    have hnf : (s.chan c).st ≠ .faulted := by rw [hst]; simp
    refine Held.trans ?_ (settles_held _)
    refine (setProgressA_held (.waiting id (.pause c)) hread.notRegion).trans (ChanWork.held ?_)
    refine ChanWork.trans (ChanWork.trans ?_ (cutOff_work _ c)) (pauseCheck_work _ c)
    exact state_work (adminWait s id (.pause c)) c _ hnf rfl rfl rfl rfl
  · rename_i hst
    have hnf : (s.chan c).st ≠ .faulted := by rw [hst]; simp
    have k : ChanWork s (s.modChan c fun ch => { ch with st := .paused, wait := .none }) :=
      state_work s c _ hnf rfl rfl rfl rfl
    exact k.held.trans (adminAnswer_held id .ok 0 (k.reading hread).notRegion)
  · exact adminAnswer_held id .ok 0 hread.notRegion

theorem startAbort_held (s : State) (c : ChanId) (a : Abort) (hnf : (s.chan c).st ≠ .faulted) :
    Held s (startAbort s c a) := by
  unfold startAbort
  refine Held.trans (ChanWork.held ?_) (settles_held _)
  refine ChanWork.trans (ChanWork.trans ?_ (cutOff_work _ c)) (abortCheck_work _ c)
  exact state_work s c _ hnf rfl rfl rfl rfl

/-- A completion slot that is free may be reserved (R3, R27). -/
theorem ringOk_reserve {ch x : Channel} {r : RingPair} (hr : ch.rings = some r) (hslot : r.hasSlot ch.reserved = true)
    (hx : x.rings = ch.rings) (hres : x.reserved = true) : RingOk x := by
  refine ⟨fun r' hr' => ?_, fun _ => hres⟩
  rw [hx, hr] at hr'
  cases hr'
  rw [hasSlot_iff] at hslot
  rw [hres, if_pos rfl]
  omega

theorem flushOn_held (s : State) (c : ChanId) (hnf : (s.chan c).st ≠ .faulted) : Held s (flushOn s c) := by
  unfold flushOn
  dsimp only
  split
  · rename_i r _ _ hr _
    split
    · refine Held.trans (ChanWork.held ?_) (adminDone_held _ (.flush c) _ _ (by simp))
      exact state_work s c _ hnf rfl rfl rfl rfl
    · split
      · rename_i hslot
        exact setChan_held s c _ (fun _ => ringOk_reserve hr hslot rfl rfl) id
      · exact (setWait_work ..).held
  · exact Held.refl s

theorem abortAllowed_faulted {st : ChanState} (h : abortAllowed st = true) : st ≠ .faulted := by
  rintro rfl; cases h

theorem abort_held (rec : Record32) (c : ChanId) (s : State) (id : BitVec 16) (hread : Reading s)
    (hst : abortAllowed (s.chan c).st = true) : Held s (abort rec c s id) := by
  have hnf := abortAllowed_faulted hst
  have hwait (on : AdminWait) : Held s (adminWait s id on) := setProgressA_held _ hread.notRegion
  unfold abort
  split
  · unfold abortCurrent
    split
    · split
      · exact hwait _
      · exact (hwait _).trans (startAbort_held (adminWait s id (.abort c)) c _ hnf)
    · exact adminAnswer_held id .ok 0 hread.notRegion
  · unfold abortFlush
    dsimp only
    refine (hwait (.flush c)).trans ?_
    have hmod (x : Channel) (h1 : x.rings = (s.chan c).rings) (h2 : x.reserved = (s.chan c).reserved)
        (h4 : x.script = (s.chan c).script) (h5 : x.data = (s.chan c).data) :
        Held (adminWait s id (.flush c)) ((adminWait s id (.flush c)).setChan c x) :=
      (state_work (adminWait s id (.flush c)) c x hnf h1 h2 h4 h5).held
    split
    · split
      · exact hmod _ rfl rfl rfl rfl
      · exact startAbort_held _ c _ hnf
    · refine (hmod { s.chan c with st := .aborting, wait := .none, abort := some _ } rfl rfl rfl rfl).trans
        (flushOn_held _ c ?_)
      rw [chan_setChan_self]; simp

theorem release_held (c : ChanId) (s : State) (id : BitVec 16) (hread : Reading s) : Held s (release c s id) :=
  (setProgressA_held _ hread.notRegion).trans (releaseCheck_work _ c).held

/-! ## The Shadow Store (06) -/

/-- A change of the store alone that keeps its law. -/
theorem shadow_held (s : State) (es : List ShadowEntry) (h : StoreLaw s → StoreLaw { s with shadow := es }) :
    Held s { s with shadow := es } where
  toSteady := ⟨Lawful.of_eq rfl rfl rfl rfl rfl, rfl, rfl⟩
  store := fun ⟨htable, hstore, hsnap, hwait⟩ => ⟨htable, h hstore, hsnap, hwait⟩
  quiet := fun h => ⟨h, rfl⟩
  held := fun h => ⟨h, rfl⟩
  port := id

theorem storeLaw_filter {s : State} (keep : ShadowEntry → Bool) (h : StoreLaw s) :
    StoreLaw { s with shadow := s.shadow.filter keep } := by
  obtain ⟨hlength, hnodup, hinside⟩ := h
  exact ⟨(List.length_filter_le _ _).trans hlength, hnodup.sublist (List.filter_sublist.map _),
    fun e he => hinside e (List.mem_filter.mp he).1⟩

/-- An address of a shadowed window may be given a value, where the store has room (R134). -/
theorem storeLaw_put {s : State} {a : BusAddr} (v : Value) {i : RegionId} {g : Region} (hg : s.region i = some g)
    (hrights : g.rights = .writeOnlyShadowed) (hholds : g.holds a = true) (hroom : shadowIsFull s.shadow a = false)
    (h : StoreLaw s) : StoreLaw { s with shadow := shadowPut s.shadow a v i } := by
  obtain ⟨hlength, hnodup, hinside⟩ := h
  refine ⟨shadowPut_length v i hlength hroom, shadowPut_nodup a v i hnodup, fun e he => ?_⟩
  rcases shadowPut_mem he with ⟨e', he', haddr, hindex⟩ | rfl
  · obtain ⟨g', h1, h2, h3⟩ := hinside e' he'
    exact ⟨g', by rw [hindex]; exact h1, h2, by rw [haddr]; exact h3⟩
  · exact ⟨g, hg, hrights, hholds⟩

/-- A seeded address lies in a shadowed window (R142). -/
theorem seedWindow_some {s : State} {addr value : Nat} {i : RegionId} (h : seedWindow s addr value = some i) :
    ∃ g, s.region i = some g ∧ g.rights = .writeOnlyShadowed ∧ g.holds (BitVec.ofNat 24 addr) = true := by
  unfold seedWindow at h
  split at h
  · split at h
    · rename_i hlookup
      split at h
      · rename_i hg
        cases h
        exact ⟨_, (lookup_some hlookup).1, hg.1, (lookup_some hlookup).2⟩
      · cases h
    · cases h
  · cases h

theorem seedShadow_held (rec : Record32) (s : State) (id : BitVec 16) (hread : Reading s) : Held s (seedShadow rec s id) := by
  unfold seedShadow
  dsimp only
  split
  · exact adminAnswer_held _ _ _ hread.notRegion
  · rename_i i hwindow
    obtain ⟨g, hg, hrights, hholds⟩ := seedWindow_some hwindow
    split
    · exact adminAnswer_held _ _ _ hread.notRegion
    · rename_i hroom
      have hput := shadow_held s _
        (storeLaw_put (BitVec.ofNat 16 (AdminRecord.param rec 12 4)) hg hrights hholds (by simpa using hroom))
      exact hput.trans (adminAnswer_held (s := { s with shadow := shadowPut .. }) _ _ _ hread.notRegion)

theorem purgeWith_held (s : State) (id : BitVec 16) (keep : ShadowEntry → Bool) (hread : Reading s) :
    Held s (purgeWith s id keep) := by
  refine (shadow_held s _ (storeLaw_filter keep)).trans ?_
  exact adminAnswer_held (s := { s with shadow := _ }) _ _ _ hread.notRegion

theorem purgeShadow_held (rec : Record32) (s : State) (id : BitVec 16) (hread : Reading s) :
    Held s (purgeShadow rec s id) := by
  unfold purgeShadow
  dsimp only
  split
  · exact purgeWith_held _ _ _ hread
  · split
    · exact purgeWith_held _ _ _ hread
    · exact adminAnswer_held _ _ _ hread.notRegion

theorem query_held (ok : Bool) (s : State) (id : BitVec 16) (d : Detail) (a : HostAddr) (bytes : List Byte) (hread : Reading s) :
    Held s (if ok then adminSnapshot s id d a bytes else adminAnswer s id .invalidField 0) := by
  split
  · exact setProgressA_held _ hread.notRegion
  · exact adminAnswer_held _ _ _ hread.notRegion

/-! ## The port (05) -/

/-- A BACKPLANE_RESET waits in MASTER mode alone (R127). -/
theorem waitPort_held (s : State) (cmd : PortCmd) (limit : Nat) (hm : ∀ w, cmd = .reset w → s.own.mode = .master) :
    Held s (waitPort s cmd limit) := by
  refine Held.trans ⟨own_calm s _, fun h => ?_⟩ (settles_held _)
  obtain ⟨h1, h2, h3, h4, -, h6⟩ := h
  exact ⟨h1, h2, h3, h4, fun w e => hm w (Option.some.inj e), h6⟩

/-- Outside HOLDING no access is in flight and no lock held (R68, R86). -/
theorem portInv_free {s : State} (h : PortInv s) (hst : s.own.state ≠ .holding) :
    s.arb.inflight = none ∧ s.arb.lock = none := by
  obtain ⟨h1, h2, -⟩ := h
  exact ⟨Option.not_isSome_iff_eq_none.mp fun e => hst (h1 e), Option.not_isSome_iff_eq_none.mp fun e => hst (h2 e)⟩

/-- Where a change of mode acts at once the port does not hold the bus (R124). -/
theorem leavesAtOnce_state {s : State} (h : PortInv s) (hl : leavesAtOnce s = true) : s.own.state ≠ .holding := by
  have hlegal := (portWeak h).legal
  intro hst
  simp only [leavesAtOnce, hst, Bool.or_eq_true, Bool.and_eq_true, beq_iff_eq, reduceCtorEq, or_self, and_false, or_false] at hl
  rw [hl, hst] at hlegal
  cases hlegal

theorem setPortMode_held (rec : Record32) (s : State) (id : BitVec 16) (hread : Reading s) :
    Held s (setPortMode rec s id) := by
  unfold setPortMode
  split
  · split
    · exact adminAnswer_held _ _ _ hread.notRegion
    · split
      · refine (own_held s { s.own with params := paramsOf rec } rfl rfl rfl rfl rfl).trans ?_
        exact adminAnswer_held (s := { s with own := _ }) _ _ _ hread.notRegion
      · dsimp only
        refine (setProgressA_held (.waiting id .portMode) hread.notRegion).trans ?_
        split
        · rename_i hl
          refine ((changeMode_turned _ _ _).held fun p => ?_).trans (settles_held _)
          obtain ⟨hf, hlock⟩ := portInv_free p (leavesAtOnce_state p hl)
          exact changeMode_port _ _ p hf hlock
        · exact waitPort_held _ _ _ nofun
  · exact adminAnswer_held _ _ _ hread.notRegion

theorem backplaneReset_held (rec : Record32) (s : State) (id : BitVec 16) (hread : Reading s) :
    Held s (backplaneReset rec s id) := by
  unfold backplaneReset
  split
  · exact adminAnswer_held _ _ _ hread.notRegion
  · split
    · rename_i hm
      exact (setProgressA_held (.waiting id .pulse) hread.notRegion).trans (waitPort_held _ _ _ fun _ _ => hm)
    · exact adminAnswer_held _ _ _ hread.notRegion

/-! ## Attention lines, sync counters and events (07, 09) -/

theorem refuseWaiters_work (s : State) (n : LineId) : ChanWork s (refuseWaiters s n) := by
  unfold refuseWaiters
  dsimp only
  refine ChanWork.trans ?_ (ChanWork.foldl _ (fun t (w : AttnWaiter) => failStep_work t w.chan .attnNotRouted 0) _ _)
  exact ChanWork.line s n rfl rfl rfl (Nat.le_refl _)

theorem judgeWaiters_work (s : State) (n : LineId) : ChanWork s (judgeWaiters s n).1 := by
  unfold judgeWaiters
  dsimp only
  split
  · exact refuseWaiters_work s n
  · split
    · exact releaseLine_work s n
    · exact ChanWork.refl s

theorem setAttention_held (rec : Record32) (s : State) (id : BitVec 16) (hread : Reading s) :
    Held s (setAttention rec s id) := by
  unfold setAttention
  split
  · split
    · exact adminAnswer_held _ _ _ hread.notRegion
    · rename_i n m r _ _ _ _
      dsimp only
      have k := judgeWaiters_work (configureLine s n m r) n
      refine Held.trans (Held.trans (Held.trans (t := configureLine s n m r) ?_ k.held)
        (adminAnswer_held _ _ _ (k.reading (s := configureLine s n m r) hread).notRegion)) (settles_held _)
      exact setLine_held s n _ fun _ => ⟨Nat.zero_le _, fun h => absurd rfl h⟩
  · exact adminAnswer_held _ _ _ hread.notRegion

theorem setSync_held (rec : Record32) (s : State) (id : BitVec 16) (hread : Reading s) : Held s (setSync rec s id) := by
  unfold setSync
  split
  · rename_i k _
    split
    · rename_i hmax
      dsimp only
      have w : ChanWork s (examine (s.setCounter k { s.counter k with value := AdminRecord.param rec 8 4 }) k) :=
        ChanWork.trans (ChanWork.counter s k (.inr hmax)) (examine_work ..)
      exact (w.held.trans (adminAnswer_held _ _ _ (w.reading hread).notRegion)).trans (settles_held _)
    · exact adminAnswer_held _ _ _ hread.notRegion
  · exact adminAnswer_held _ _ _ hread.notRegion

theorem configureEvents_held (rec : Record32) (s : State) (id : BitVec 16) (hread : Reading s) :
    Held s (configureEvents rec s id) := by
  unfold configureEvents
  dsimp only
  split
  · refine Held.trans ?_ (startEventWrite_held _)
    have hring := events_held s (beginRing s.events (AdminRecord.host rec 24) (AdminRecord.param rec 4 2))
      (holdingInv_congr rfl)
    exact hring.trans (adminAnswer_held (s := { s with events := beginRing .. }) _ _ _ hread.notRegion)
  · exact adminAnswer_held _ _ _ hread.notRegion

/-! ## The admin queue (08) -/

theorem takeUnknown_held (rec : Record32) (s : State) : Held s (takeUnknown rec s) := by
  unfold takeUnknown
  split
  · rename_i a ha
    split
    · refine Held.trans (t := headPast s) (admin_held s _ rfl (.inl rfl)) ?_
      exact adminAnswer_held (s := headPast s) _ _ _ (Reading.notRegion ⟨a, ha⟩)
    · exact setProgressA_held _ (Reading.notRegion ⟨a, ha⟩)
  · exact Held.refl s

theorem startCommandRead_held (s : State) : Held s (startCommandRead s) := by
  unfold startCommandRead
  split
  · rename_i h
    simp only [mayTakeCommand, Bool.and_eq_true, beq_iff_eq] at h
    obtain ⟨⟨⟨-, hidle⟩, -⟩, -⟩ := h
    exact admin_held s _ rfl (.inr fun id e => by rw [hidle] at e; cases e)
  · exact Held.refl s

theorem commandReadFails_held (s : State) : Held s (commandReadFails s) := by
  unfold commandReadFails
  split
  · rename_i a ha
    have hread : Reading s := ⟨a, ha⟩
    split
    · exact (setAdminFault_held s).trans (setProgressA_held (s := setAdminFault s) _ hread.notRegion)
    · exact setProgressA_held _ hread.notRegion
  · exact Held.refl s

theorem askVector_held (s : State) (v : VectorId) : Held s (askVector s v) := by
  rw [askVector_eq]; exact vectors_held s _

theorem endAdminWrite_held (s : State) (ok : Bool) : Held s (endAdminWrite s ok) := by
  unfold endAdminWrite
  split
  · rename_i w hw
    have hn : NotRegion s := fun id e => by rw [hw] at e; cases e
    split
    · exact setProgressA_held _ hn
    · split
      · refine Held.trans ?_ (askVector_held _ 0)
        exact admin_held s _ rfl (.inr hn)
      · exact (setAdminFault_held s).trans (setProgressA_held (s := setAdminFault s) _ hn)
  · exact Held.refl s

theorem endSnapshot_held (s : State) (ok : Bool) : Held s (endSnapshot s ok) := by
  unfold endSnapshot
  split
  · rename_i id d w hw
    have hn : NotRegion s := fun id e => by rw [hw] at e; cases e
    split
    · exact setProgressA_held _ hn
    · split
      · exact adminAnswer_held _ _ _ hn
      · exact adminAnswer_held _ _ _ hn
  · exact Held.refl s

end Sys2Proof.Machine
end

section
/-! PROOF. Channel faults, host transfers, steps and register writes under the relation `Held`. -/

namespace Sys2Proof.Machine

open Sys2Proof.Safety

/-! ## Channel faults (R31) -/

/-- A channel a fault has reached keeps its rings and owes nothing (R31). -/
theorem faultedChan_kept (ch : Channel) : ChanKept ch (faultedChan ch) where
  rings := .inl (by simp [faultedChan, discardFetch])
  reserved h := by simp [faultedChan] at h
  owes h := absurd (by simp [faultedChan]) h.1
  links _ h := by simp [faultedChan] at h

theorem faultedChan_work (s : State) (c : ChanId) : ChanWork s (s.modChan c faultedChan) :=
  ChanWork.chan s c (faultedChan_kept _)

theorem answerFault_work (s : State) (c : ChanId) (before : Channel) (own : Bool) :
    ChanWork s (answerFault s c before own) := by
  unfold answerFault
  split
  · split
    · rename_i h
      exact adminDone_work _ _ _ _ (by rcases h with rfl | rfl <;> simp)
    · split
      · rename_i h
        subst h
        split
        · exact adminDone_work _ _ _ _ (by simp)
        · exact adminDone_work _ _ _ _ (by simp)
      · split
        · rename_i h
          subst h
          split
          · exact adminDone_work _ _ _ _ (by simp)
          · exact adminDone_work _ _ _ _ (by simp)
        · exact ChanWork.refl s
  · exact ChanWork.refl s

/-- The part of a fault that precedes the event: the request, the lists and the lock are given up. -/
theorem faultFrees_work (s : State) (c : ChanId) :
    ChanWork s (if (leaveLists (withdraw s c) c).accessOf c then leaveLists (withdraw s c) c
      else releaseLock (leaveLists (withdraw s c) c) c) := by
  have k : ChanWork s (leaveLists (withdraw s c) c) := (withdraw_work s c).trans (leaveLists_work _ c)
  split
  · exact k
  · exact k.trans (releaseLock_work _ c)

theorem channelFault_held (s : State) (c : ChanId) (k : ChanFault) (own : Bool) : Held s (channelFault s c k own) := by
  unfold channelFault
  dsimp only
  split
  · exact Held.refl s
  · exact (((faultFrees_work s c).trans (faultedChan_work _ c)).held.trans
      (raiseEvent_held _ .channelFault c.val _)).trans (answerFault_work _ c _ own).held

/-! ## Ends of host transfers -/

/-- The rings move on with no record posted: nothing is added to the count. -/
theorem ringOk_map {ch : Channel} {f : RingPair → RingPair} (hf : ∀ r, (f r).unconsumed ≤ r.unconsumed ∧ (f r).cqSize = r.cqSize)
    (h : RingOk ch) : RingOk { ch with rings := ch.rings.map f } := by
  refine ⟨fun r' hr' => ?_, h.2⟩
  obtain ⟨r, hr, rfl⟩ := Option.map_eq_some_iff.mp hr'
  obtain ⟨hle, hsize⟩ := hf r
  rw [hsize]
  exact (Nat.add_le_add_right hle _).trans (h.1 r hr)

theorem modRings_held (s : State) (c : ChanId) (f : RingPair → RingPair)
    (hf : ∀ r, (f r).unconsumed ≤ r.unconsumed ∧ (f r).cqSize = r.cqSize) : Held s (s.modRings c f) :=
  setChan_held s c _ (ringOk_map hf) id

theorem clearData_work (s : State) (c : ChanId) : ChanWork s (clearData s c) := by
  refine ChanWork.chan s c ⟨.inl rfl, id, fun h => ⟨⟨h.1, ?_⟩, rfl⟩, fun sc' e => ⟨sc', e, .inl ⟨.inl rfl, rfl, .inl⟩⟩⟩
  rcases h.2 with h | ⟨_, h⟩ | ⟨_, h⟩
  · exact .inl h
  · cases h
  · cases h

theorem takeRequest_held (s : State) (c : ChanId) : Held s (takeRequest s c) := by
  unfold takeRequest
  dsimp only
  split
  · rename_i r hr
    split
    · rename_i h
      refine setChan_held s c _ (fun _ => ringOk_reserve hr h.2.2.2 rfl rfl) fun _ sc e => ?_
      cases e
      exact ⟨Nat.zero_le _, nofun⟩
    · exact Held.refl s
  · exact Held.refl s

theorem checkRequest_work (q : Record32) (s : State) (c : ChanId) : ChanWork s (checkRequest q s c) := by
  unfold checkRequest
  split
  · exact (scriptStep_work s c (fun sc => { sc with checked := true, listPos := RequestRecord.listAddr q })
      (fun _ => rfl) (fun _ => rfl) (fun _ => .inl)).trans (goOn_work _ c)
  · exact endScript_work ..

theorem requestRead_held (q : Record32) (s : State) (c : ChanId) : Held s (requestRead q s c) := by
  unfold requestRead
  dsimp only
  have k : Held s ((s.modRings c RingPair.advanceHead).modScript c (copyRequest q)) :=
    (modRings_held s c RingPair.advanceHead fun _ => ⟨Nat.le_refl _, rfl⟩).trans
      (scriptStep_work _ c (copyRequest q) (fun _ => rfl) (fun _ => rfl) (fun _ => .inl)).held
  split
  · exact k.trans (abortCheck_work ..).held
  · exact k.trans (checkRequest_work ..).held

theorem endRequestRead_held (s : State) (c : ChanId) (q : Option Record32) : Held s (endRequestRead s c q) := by
  unfold endRequestRead
  split
  · dsimp only
    refine (clearData_work s c).held.trans ?_
    split
    · exact (waitOver_work ..).held
    · split
      · exact (requestRead_held ..).trans (settles_held _)
      · exact (channelFault_held ..).trans (settles_held _)
      · exact (goOn_work ..).held.trans (settles_held _)
  · exact Held.refl s

/-- The FLUSHED completion takes the reservation made for the request's read (R27, R28). -/
theorem flushRead_held (q : Record32) {s : State} {c : ChanId} {a : HostAddr} (hd : (s.chan c).data = some (.flushRead a))
    (hst : (s.chan c).st ≠ .faulted) : Held s (flushRead q (clearData s c) c) := by
  have hres (k : RingOk (s.chan c)) : (s.chan c).reserved = true := k.2 ⟨hst, .inr (.inl ⟨a, hd⟩)⟩
  unfold flushRead
  dsimp only
  split
  · simp only [clearData, startData, modChan_eq, modRings_eq, setChan_setChan, chan_setChan_self]
    exact setChan_held s c _
      (fun k => ⟨(ringOk_map (f := RingPair.advanceHead) (fun _ => ⟨Nat.le_refl _, rfl⟩) k).1, fun _ => hres k⟩) id
  · exact (clearData_work s c).held.trans (modRings_held _ c _ fun _ => ⟨Nat.le_refl _, rfl⟩)

theorem endFlushRead_held (s : State) (c : ChanId) (q : Option Record32) : Held s (endFlushRead s c q) := by
  unfold endFlushRead
  split
  · rename_i a hd
    dsimp only
    split
    · exact ((clearData_work s c).trans (waitOver_work ..)).held
    · split
      · rename_i hst
        split
        · refine flushRead_held _ hd ?_
          have e : (s.chan c).st = .aborting := by simpa [clearData] using hst
          rw [e]; simp
        · exact ((clearData_work s c).held.trans (channelFault_held ..)).trans (settles_held _)
      · exact ((clearData_work s c).trans (goOn_work ..)).held.trans (settles_held _)
  · exact Held.refl s

theorem endStepData_held (s : State) (c : ChanId) (act : State → Step → State) (h : ∀ s st, ChanWork s (act s st)) :
    Held s (endStepData s c act) := by
  unfold endStepData
  dsimp only
  refine (clearData_work s c).held.trans ?_
  split
  · exact (waitOver_work ..).held
  · refine Held.trans (ChanWork.held ?_) (settles_held _)
    split
    · split
      · exact startCompletion_work ..
      · split
        · split
          · exact h _ _
          · exact ChanWork.refl _
        · exact goOn_work ..
    · exact goOn_work ..

theorem readWritten_work (ok : Bool) (c : ChanId) (s : State) (st : Step) : ChanWork s (readWritten ok c s st) := by
  unfold readWritten; split
  · exact completeStep_work ..
  · exact failStep_work ..

theorem slotWritten_work (ok : Bool) (c : ChanId) (s : State) (st : Step) : ChanWork s (slotWritten ok c s st) := by
  unfold slotWritten
  split
  · split
    · exact failStep_work ..
    · split
      · exact (setProgress_work ..).trans (completeStep_work ..)
      · exact (setProgress_work ..).trans (continueStep_work ..)
  · exact ChanWork.refl s

theorem slotRead_work (v : Option Value) (c : ChanId) (s : State) (st : Step) : ChanWork s (slotRead v c s st) := by
  unfold slotRead
  split
  · exact (setProgress_work ..).trans (continueStep_work ..)
  · exact failStep_work ..
  · exact ChanWork.refl s

theorem joinWindow_work (s : State) (c : ChanId) (f : Fetch) (r : Option (BitVec 512)) :
    ChanWork s (s.modScript c (joinWindow f r)) := by
  refine scriptStep_work s c _ (fun sc => ?_) (fun sc => ?_) (fun sc => ?_)
  · unfold joinWindow; split <;> rfl
  · unfold joinWindow; split <;> rfl
  · unfold joinWindow; split <;> exact .inl

theorem endFetch_held (s : State) (c : ChanId) (r : Option (BitVec 512)) : Held s (endFetch s c r) := by
  unfold endFetch
  split
  · dsimp only
    refine (ChanWork.chan s c (ChanKept.outer _ _ rfl rfl rfl rfl rfl) :
      ChanWork s (s.modChan c fun ch => { ch with fetch := none })).held.trans ?_
    split
    · exact (waitOver_work ..).held
    · split
      · exact ((joinWindow_work ..).trans (goOn_work ..)).held.trans (settles_held _)
      · exact (goOn_work ..).held.trans (settles_held _)
  · exact Held.refl s

/-! ## COMPLETION_WRITE_END (R15, R16) -/

/-- A completion posted takes up the slot reserved for it (R15). -/
theorem posted_held {s : State} {c : ChanId} {w : HostWrite} (x : Channel) (hd : (s.chan c).data = some (.completion w))
    (hst : (s.chan c).st ≠ .faulted) (h1 : x.rings = (s.chan c).rings.map RingPair.post) (h2 : x.reserved = false)
    (h3 : x.data = none) (h4 : x.script = none) : Held s (s.setChan c x) := by
  refine setChan_held s c x (fun k => ⟨fun r' hr' => ?_, fun o => ?_⟩) fun _ sc e => ?_
  · have hres := k.2 ⟨hst, .inr (.inr ⟨w, hd⟩)⟩
    rw [h1] at hr'
    obtain ⟨r, hr, rfl⟩ := Option.map_eq_some_iff.mp hr'
    have := k.1 r hr
    rw [hres] at this
    rw [h2]
    exact this
  · obtain ⟨-, o⟩ := o
    rw [h3, h4] at o
    rcases o with o | ⟨_, o⟩ | ⟨_, o⟩ <;> cases o
  · rw [h4] at e; cases e

theorem flushNext_held (s : State) (c : ChanId) (hst : (s.chan c).st ≠ .faulted) : Held s (flushNext s c) := by
  unfold flushNext
  refine Held.trans (ChanWork.held ?_) (flushOn_held _ c ?_)
  · exact state_work s c _ hst rfl rfl rfl rfl
  · simp

theorem answerAbort_held (s : State) (c : ChanId) : Held s (answerAbort s c) := adminDone_held _ (.abort c) _ _ (by simp)

theorem afterPosted_held (s : State) (c : ChanId) (sc : Script) (e : Ending) (hst : (s.chan c).st ≠ .faulted) :
    Held s (afterPosted s c sc e) := by
  have hmod (x : Channel) (h1 : x.rings = (s.chan c).rings) (h2 : x.reserved = (s.chan c).reserved)
      (h3 : x.script = (s.chan c).script) (h4 : x.data = (s.chan c).data) : Held s (s.setChan c x) :=
    (state_work s c x hst h1 h2 h3 h4).held
  unfold afterPosted
  dsimp only
  split
  · exact flushNext_held s c hst
  · exact flushNext_held s c hst
  · exact flushNext_held s c hst
  · refine Held.trans ?_ (answerAbort_held _ c)
    split
    · exact hmod _ rfl rfl rfl rfl
    · exact hmod _ rfl rfl rfl rfl
  · refine Held.trans ?_ (answerAbort_held _ c)
    split
    · exact hmod _ rfl rfl rfl rfl
    · exact hmod _ rfl rfl rfl rfl
  · exact (pauseCheck_work ..).held
  · split
    · refine Held.trans ?_ (adminDone_held _ (.start c) _ _ (by simp))
      exact hmod _ rfl rfl rfl rfl
    · refine Held.trans ?_ (answerAbort_held _ c)
      exact hmod _ rfl rfl rfl rfl
  · exact Held.refl s

@[simp] theorem askVector_chan (s : State) (v : VectorId) (c : ChanId) : (askVector s v).chan c = s.chan c := by
  rw [askVector_eq]; rfl

theorem postScript_held {s : State} {c : ChanId} {w : HostWrite} (sc : Script) (e : Ending)
    (hd : (s.chan c).data = some (.completion w)) (hst : (s.chan c).st ≠ .faulted) :
    Held s (postScript (clearData s c) c sc e) := by
  unfold postScript
  dsimp only
  have k : Held s (((clearData s c).modRings c RingPair.post).modChan c fun ch =>
      { ch with reserved := false, script := none }) := by
    simp only [clearData, modChan_eq, modRings_eq, setChan_setChan, chan_setChan_self]
    exact posted_held _ hd hst rfl rfl rfl rfl
  split
  · exact (k.trans (askVector_held _ _)).trans (afterPosted_held _ c sc e (by simpa [clearData] using hst))
  · exact k.trans (afterPosted_held _ c sc e (by simpa [clearData] using hst))

theorem postFlushed_held {s : State} {c : ChanId} {w : HostWrite} (hd : (s.chan c).data = some (.completion w))
    (hst : (s.chan c).st ≠ .faulted) (hs : (s.chan c).script = none) : Held s (postFlushed (clearData s c) c) := by
  unfold postFlushed
  dsimp only
  refine Held.trans (Held.trans ?_ (askVector_held _ _)) (flushNext_held _ c (by simpa [clearData] using hst))
  simp only [clearData, modChan_eq, modRings_eq, setChan_setChan, chan_setChan_self]
  exact posted_held _ hd hst rfl rfl rfl hs

theorem endCompletion_held (s : State) (c : ChanId) (ok : Bool) : Held s (endCompletion s c ok) := by
  have hst : ((clearData s c).chan c).st = (s.chan c).st := by simp [clearData]
  have hs : ((clearData s c).chan c).script = (s.chan c).script := by simp [clearData]
  unfold endCompletion
  split
  · rename_i w hd
    dsimp only
    split
    · exact ((clearData_work s c).trans (waitOver_work ..)).held
    · rw [hst, hs]
      split
      · exact ((clearData_work s c).trans (goOn_work ..)).held
      · rename_i hnf
        split
        · exact ((clearData_work s c).held.trans (channelFault_held ..)).trans (settles_held _)
        · split
          · split
            · exact postScript_held _ _ hd hnf
            · exact (clearData_work s c).held
          · rename_i hnone
            exact postFlushed_held hd hnf hnone
  · exact Held.refl s

/-! ## Steps (02) -/

/-- The script turns to another position while a step of it is current, so its end is not fixed (R11, R13). -/
theorem turnTo_held {s : State} {c : ChanId} {st : Step} {links : List HostAddr} (pos : HostAddr)
    (hstep : s.step? c = some st)
    (h : ∀ sc, (s.chan c).script = some sc → links.length ≤ sc.links.length ∨ links.length ≤ Config.linkDepth) :
    Held s (turnTo s c links pos) := by
  unfold turnTo
  simp only [modChan_eq, modScript_eq, setChan_setChan, chan_setChan_self]
  refine setChan_held s c _ (fun k => ⟨k.1, fun o => k.2 ⟨o.1, ?_⟩⟩) fun k sc' e => ?_
  · rcases o.2 with o | o
    · exact .inl (by simpa [discardFetch] using o)
    · exact .inr o
  · obtain ⟨sc, hsc, rfl⟩ := Option.map_eq_some_iff.mp e
    obtain ⟨hdepth, hend⟩ := k sc hsc
    refine ⟨?_, fun he => ?_⟩
    · rcases h sc hsc with hle | hle
      · exact hle.trans hdepth
      · exact hle
    · have hsc : (s.chan c).script = some sc := hsc
      rw [step?_def, hsc, Option.bind_some, (hend he).2] at hstep
      cases hstep

theorem runCall_held {s : State} {c : ChanId} {st : Step} (hstep : s.step? c = some st) : Held s (runCall c s st) := by
  unfold runCall
  split
  · split
    · rename_i h
      exact (turnTo_held _ hstep fun _ _ => .inr (by simpa using h)).trans (completeStep_work ..).held
    · exact (failStep_work ..).held
  · exact Held.refl s

theorem runEnd_held {s : State} {c : ChanId} {st : Step} (hstep : s.step? c = some st) : Held s (runEnd c s st) := by
  unfold runEnd
  split
  · rename_i sc hs
    split
    · exact ((closeStep_work s c).trans (endOk_work _ c)).held
    · rename_i pos rest hl
      refine (turnTo_held _ hstep fun sc' e => .inl ?_).trans (completeStep_work ..).held
      rw [hs] at e; cases e
      rw [hl]; exact Nat.le_succ _
  · exact Held.refl s

theorem runStep_held {s : State} {c : ChanId} {st : Step} (k : StepKind) (hstep : s.step? c = some st) :
    Held s (runStep c k s st) := by
  cases k
  case call => exact runCall_held hstep
  case endStep => exact runEnd_held hstep
  case delay => exact (startDelay_work ..).held
  case signal => exact (runSignal_work ..).held
  case await => exact (startAwait_work ..).held
  case attend => exact (startAttend_work ..).held
  all_goals exact ((setProgress_work s c _).trans (act_work _ c)).held

/-- A step started stands current on its channel (R7). -/
theorem started_some {s : State} {c : ChanId} {k : StepKind} {st : Step} (h : started s c k = some st) :
    s.ready = true ∧ (s.chan c).st = .running ∧ s.step? c = some st ∧ st.progress = .fresh ∧
      StepRecord.kind st.bits = some k := by
  unfold started at h
  split at h
  · rename_i hrun
    split at h
    · rename_i hstep
      split at h
      · rename_i hk
        cases h
        exact ⟨hrun.1, hrun.2, hstep, hk.1, hk.2⟩
      · cases h
    · cases h
  · cases h

theorem carryOut_held (s : State) (c : ChanId) (k : StepKind) : Held s (carryOut s c k (runStep c k)) := by
  unfold carryOut
  split
  · rename_i st hst
    refine Held.trans ?_ (settles_held _)
    unfold checked
    split
    · exact runStep_held k (started_some hst).2.2.1
    · exact (failStep_work ..).held
  · exact Held.refl s

/-! ## Index writes (R169 to R173, R184, R192) -/

theorem afterIndexWrite_held (s : State) (c : ChanId) : Held s (afterIndexWrite s c) := by
  unfold afterIndexWrite
  split
  · rename_i hst
    exact (enterIdle_work s c (by rw [hst]; simp)).held
  · split
    · rename_i h
      refine flushOn_held s c ?_
      simp only [flushWaits, Bool.and_eq_true, beq_iff_eq] at h
      rw [h.1.1.1]; simp
    · exact Held.refl s

theorem writeIndices_held (s : State) (c : ChanId) (t h : Nat) : Held s (writeIndices s c t h) := by
  unfold writeIndices
  split
  · split
    · exact (channelFault_held ..).trans (settles_held _)
    · exact (modRings_held s c _ fun r => ⟨hostWrite_unconsumed_le r t h, rfl⟩).trans (afterIndexWrite_held _ c)
  · exact Held.refl s

theorem writeAdminIndices_held (s : State) (t h : Nat) : Held s (writeAdminIndices s t h) := by
  unfold writeAdminIndices
  split
  · exact Held.refl s
  · split
    · exact admin_held s _ rfl (.inl rfl)
    · exact setAdminFault_held s

theorem writeEventHead_held (s : State) (h : Nat) : Held s (writeEventHead s h) := by
  unfold writeEventHead
  dsimp only
  split
  · exact Held.refl s
  · split
    · refine Held.trans ?_ (startEventWrite_held _)
      exact events_held s _ (holdingInv_congr rfl)
    · exact events_held s _ (holdingInv_congr rfl)

/-! ## Ends of event writes and messages (R190, R191, R198) -/

theorem returnEvent_held (s : State) (b : Bool) (r : EventRecord) :
    Held s { s with events := { returnEvent { s.events with write := none } r with fault := b } } :=
  events_held s _ (holdingReturn_nodup r)

theorem endEventWrite_held (s : State) (ok : Bool) : Held s (endEventWrite s ok) := by
  have hover (e : EventUnit) (he : e.holding = s.events.holding) : Held s { s with events := e } :=
    events_held s e (holdingInv_congr he)
  unfold endEventWrite
  split
  · exact Held.refl s
  · rename_i w _
    dsimp only
    split
    · exact hover _ rfl
    · split
      · refine Held.trans ?_ (startEventWrite_held _)
        split
        · exact hover _ rfl
        · exact returnEvent_held s s.events.fault w.record
      · split
        · refine Held.trans (Held.trans ?_ (askVector_held _ 1)) (startEventWrite_held _)
          exact hover _ rfl
        · exact returnEvent_held s true w.record

theorem endMessage_held (s : State) (v : VectorId) (ok : Bool) : Held s (endMessage s v ok) := by
  unfold endMessage
  dsimp only
  split
  · exact Held.refl s
  · exact vectors_held s _

end Sys2Proof.Machine
end

section
/-! PROOF. Region commands, the ends of an access and of a pulse, timers, lines, registers and resets under the relations
`Stored`, `Ended` and `Restart`. -/

namespace Sys2Proof.Machine

open Sys2Proof.Safety

/-! ## The region commands (R95 to R99) -/

/-- The store and the table keep their law, whatever becomes of the table: the region commands. -/
structure Stored (s t : State) : Prop extends Steady s t where
  store : StoreInv s → StoreInv t
  port : PortInv s → PortInv t

theorem Ended.stored {s t : State} (h : Ended s t) : Stored s t := ⟨h.toSteady, h.store, h.port⟩

theorem Held.stored {s t : State} (h : Held s t) : Stored s t := h.toEnded.stored

theorem Stored.trans {s t u : State} (h : Stored s t) (g : Stored t u) : Stored s u :=
  ⟨h.toSteady.trans g.toSteady, g.store ∘ h.store, g.port ∘ h.port⟩

theorem regionBusy_false {s : State} {i : RegionId} (h : ¬ regionBusy s i = true) (f : InFlight)
    (hf : s.arb.inflight = some f) : f.index ≠ i := by
  simpa [regionBusy, hf] using h

theorem regionBusy_inflight {s : State} {i : RegionId} (h : regionBusy s i = true) : s.arb.inflight.isSome = true := by
  unfold regionBusy at h
  split at h
  · rename_i hf; rw [hf]; rfl
  · cases h

/-- A checked change acts or waits, and keeps the law either way (R97). -/
theorem changeRegion_stored (s : State) (id : BitVec 16) {ch : RegionChange} (hready : s.ready = true)
    (hfit : StoreInv s → ch.Fits s) : Stored s (changeRegion s id ch) := by
  unfold changeRegion
  dsimp only
  split
  · rename_i hbusy
    refine ⟨⟨Lawful.of_eq rfl rfl rfl rfl rfl, rfl, rfl⟩, fun h => ?_, fun h => h⟩
    have hfits := hfit h
    obtain ⟨htable, hstore, hsnap, -, -⟩ := h
    refine ⟨htable, hstore, hsnap, fun _ => ⟨regionBusy_inflight hbusy, ?_, fun _ => ⟨id, rfl⟩⟩, fun i g e => ?_⟩
    · simp [State.initialising, adminWait, hready]
    · cases e; exact hfits
  · rename_i hbusy
    have hwaits : Steady s (adminWait s id .region) := ⟨Lawful.of_eq rfl rfl rfl rfl rfl, rfl, rfl⟩
    refine ⟨hwaits.trans (applyRegion_steady _ ch), fun h => ?_, fun h => ?_⟩
    on_goal 2 =>
      obtain ⟨a, -, e⟩ := applyRegion_eq (adminWait s id .region) ch
      rw [e]; exact h
    have hfits := hfit h
    obtain ⟨htable, hstore, hsnap, -, -⟩ := h
    refine applyRegion_storeInv (s := adminWait s id .region) ⟨htable, hstore, hsnap⟩ ?_ (regionBusy_false hbusy)
    cases ch with
    | set i g => exact hfits
    | clear i => trivial

theorem setRegion_stored (rec : Record32) {s : State} (id : BitVec 16) (hready : s.ready = true) (hread : Reading s) :
    Stored s (setRegion rec s id) := by
  unfold setRegion
  split
  · split
    · exact (adminAnswer_held _ _ _ hread.notRegion).stored
    · rename_i hnone
      exact changeRegion_stored s id hready fun _ => overlapOf_none.mp hnone
  · exact (adminAnswer_held _ _ _ hread.notRegion).stored

theorem clearRegion_stored (rec : Record32) {s : State} (id : BitVec 16) (hready : s.ready = true) (hread : Reading s) :
    Stored s (clearRegion rec s id) := by
  unfold clearRegion
  split
  · split
    · exact changeRegion_stored s id hready fun _ => trivial
    · exact (adminAnswer_held _ _ _ hread.notRegion).stored
  · exact (adminAnswer_held _ _ _ hread.notRegion).stored

theorem takeCommand_stored {rec : Record32} {k : AdminCode} {act : State → BitVec 16 → State} (s : State)
    (h : ∀ s id, s.ready = true → Reading s → Stored s (act s id)) : Stored s (takeCommand s rec k act) := by
  by_cases hread : Reading s
  · obtain ⟨a, ha⟩ := hread
    by_cases ht : Taken s rec k
    · rw [takeCommand_taken act ht]
      have hpast : Held s (headPast s) := admin_held s _ rfl (.inl rfl)
      exact hpast.stored.trans (h (headPast s) _ ht.2.1 ⟨a, ha⟩)
    · have same : takeCommand s rec k act = takeCommand s rec k fun t _ => t := by
        unfold takeCommand
        rw [ha]
        dsimp only
        split
        · split
          · exact absurd ⟨⟨a, ha⟩, ‹_›, ‹_›⟩ ht
          · rfl
        · rfl
      rw [same]
      exact (takeCommand_held s fun t _ _ _ => Held.refl t).stored
  · rw [takeCommand_idle act fun a ha => hread ⟨a, ha⟩]
    exact (Held.refl s).stored

/-! ## The end of an access (R74) -/

/-- The state between the end of the access and what follows it: a change that waited for the access may act. -/
structure Opened (s t : State) : Prop extends Steady s t where
  loosened : StoreInv s → Loosened t
  port : PortInv s → PortWeak t
  inflight : t.arb.inflight = none
  wait : t.regionWait = s.regionWait
  regions : t.regions = s.regions

theorem Opened.work {s t u : State} (h : Opened s t) (k : ChanWork t u) : Opened s u where
  toSteady := h.toSteady.trans k.held.toSteady
  loosened := fun hs => (h.loosened hs).turned k.kept k.inflight
  port := fun hs => k.portWeak (h.port hs)
  inflight := k.inflight.trans h.inflight
  wait := k.regionWait.trans h.wait
  regions := k.regions.trans h.regions

theorem Opened.settle {s t : State} (h : Opened s t) : Ended s (settle t) where
  toSteady := h.toSteady.trans (settle_steady t)
  store := fun hs => settle_storeInv_of_loosened (h.loosened hs)
  quiet := fun hw => by
    have hw := h.wait.trans hw
    obtain ⟨hw', hr⟩ := (settle_calm_of_none hw).quiet hw
    exact ⟨hw', hr.trans h.regions⟩
  port := fun hs => settle_port_of_weak (h.port hs) h.inflight

theorem resetPort_turned (s : State) : Turned s (resetPort s) := by
  unfold resetPort
  dsimp only
  refine ((clearLock_work s).turned.trans (own_turned _ { (clearLock s).own with breakDue := false, preemptDue := false }
    ⟨rfl, rfl, rfl⟩)).trans ?_
  split
  · exact own_turned _ _ ⟨rfl, rfl, rfl⟩
  · exact Turned.refl _

/-- A bridge reset drops the breaks that wait, and takes a GUEST's bus, once no access is in flight (R207). -/
theorem resetPort_port {s : State} (h : PortWeak s) (hf : s.arb.inflight = none) : PortInv (resetPort s) := by
  have k := (clearLock_work s).portWeak h
  have hfc : (clearLock s).arb.inflight = none := (clearLock_work s).inflight.trans hf
  have hlc : (clearLock s).arb.lock = none := rfl
  unfold resetPort
  dsimp only
  split
  · rename_i hm
    exact portInv_moves hfc hlc (by simp only [hm]; rfl) k.passage k.reset rfl
  · exact portInv_moves hfc hlc k.legal k.passage k.reset rfl

theorem resetServe_calm (s : State) : Calm s (serve (resetPort s)) :=
  (resetPort_turned s).toCalm.trans (serve_held _).toCalm

theorem Opened.reset {s t : State} (h : Opened s t) : Ended s (afterAccessInReset t) where
  toSteady := (h.toSteady.trans (waitingRegion_steady t)).trans (resetServe_calm _).toSteady
  store := fun hs => (resetServe_calm _).store (h.loosened hs).waitingRegion
  quiet := fun hw => by
    have hw := h.wait.trans hw
    unfold afterAccessInReset
    rw [waitingRegion_self hw]
    obtain ⟨hw', hr⟩ := (resetServe_calm t).quiet hw
    exact ⟨hw', hr.trans h.regions⟩
  port := fun hs => by
    have hwait : PortWeak (waitingRegion t) ∧ (waitingRegion t).arb.inflight = none := by
      unfold waitingRegion
      split
      · rename_i ch _
        obtain ⟨a, -, e⟩ := applyRegion_eq t ch
        obtain ⟨h1, h2, h3, h4, h5, h6⟩ := h.port hs
        rw [e]; exact ⟨⟨h1, h2, h3, h4, h5, h6⟩, h.inflight⟩
      · exact ⟨h.port hs, h.inflight⟩
    exact (serve_held _).port (resetPort_port hwait.1 hwait.2)

/-- A state with no access in flight is one in which a waiting change may act. -/
theorem opened_of_none {s : State} (h : s.arb.inflight = none) : Opened s s :=
  ⟨Steady.refl s, fun hs => loosened_of_storeInv hs h, portWeak, h, rfl, rfl⟩

theorem removeRecord_opened (s : State) : Opened s (removeRecord s) where
  toSteady := ⟨Lawful.of_eq rfl rfl rfl rfl rfl, rfl, rfl⟩
  loosened := fun ⟨htable, hstore, _, _, hset⟩ =>
    ⟨⟨htable, hstore, fun f hf => by cases hf⟩, rfl, fun ch hch => by
      cases ch with
      | set i g => exact hset i g hch
      | clear i => trivial⟩
  port := fun hs => by
    obtain ⟨h1, h2, h3, h4, h5, h6⟩ := portWeak hs
    exact ⟨nofun, h2, h3, h4, h5, h6⟩
  inflight := rfl
  wait := rfl
  regions := rfl

/-- A write that has ended changes the store alone, and by an entry of the window of its record (R134, R136). -/
theorem recordWrite_eq (s : State) (f : InFlight) (o : AccessOutcome) : ∃ es, (recordWrite s f o).1 = { s with shadow := es } ∧
    (s.region f.index = some f.region ∧ f.region.holds f.addr = true → StoreLaw s → StoreLaw { s with shadow := es }) := by
  unfold recordWrite
  split
  · rename_i v _
    split
    · rename_i hw
      obtain ⟨-, hrights⟩ : f.purpose.isWrite = true ∧ f.region.rights = .writeOnlyShadowed := by simpa using hw
      dsimp only [shadowRecord]
      split
      · exact ⟨s.shadow, rfl, fun _ h => h⟩
      · rename_i hroom
        exact ⟨_, rfl, fun hin h => storeLaw_put _ hin.1 hrights hin.2 (by simpa using hroom) h⟩
    · exact ⟨s.shadow, rfl, fun _ h => h⟩
  · exact ⟨s.shadow, rfl, fun _ h => h⟩

theorem recordWrite_opened {s : State} {f : InFlight} (hf : s.arb.inflight = some f) (o : AccessOutcome) :
    Opened s (recordWrite (removeRecord s) f o).1 := by
  obtain ⟨es, e, hstore⟩ := recordWrite_eq (removeRecord s) f o
  rw [e]
  exact {
    toSteady := ⟨Lawful.of_eq rfl rfl rfl rfl rfl, rfl, rfl⟩
    wait := rfl
    regions := rfl
    inflight := rfl
    port := fun hs => by
      obtain ⟨h1, h2, h3, h4, h5, h6⟩ := (removeRecord_opened s).port hs
      exact ⟨h1, h2, h3, h4, h5, h6⟩
    loosened := fun hs => by
      have hsnap := hs.2.2.1 f hf
      obtain ⟨⟨htable, hlaw, -⟩, hnone, hfits⟩ := (removeRecord_opened s).loosened hs
      exact ⟨⟨htable, hstore hsnap hlaw, fun f hf => by cases hf⟩, hnone, fun ch hch => by
        cases ch with
        | set i g => exact hfits _ hch
        | clear i => trivial⟩ }

theorem endAccess_ended {s : State} {f : InFlight} (hf : s.arb.inflight = some f) (o : AccessOutcome) :
    Ended s (endAccess s f o) := by
  unfold endAccess
  dsimp only
  have k := recordWrite_opened hf o
  split
  · exact ((k.work (deliver_work ..)).work (carrySteps_work ..)).settle
  · exact (k.work (waitOver_work ..)).reset

theorem retryAccess_ended (s : State) (f : InFlight) : Ended s (retryAccess s f) := by
  have k := removeRecord_opened s
  unfold retryAccess
  dsimp only
  split
  · split
    · exact (k.work (joinSet_work ..)).settle
    · exact ((k.work (releaseLock_work ..)).work (goOn_work ..)).settle
    · exact (k.work (goOn_work ..)).settle
  · exact (k.work (waitOver_work ..)).reset

theorem Ended.refl (s : State) : Ended s s := (Held.refl s).toEnded

theorem seeReady_ended (s : State) (lanes : Value) : Ended s (seeReady s lanes) := by
  unfold seeReady
  split
  · split
    · exact endAccess_ended ‹_› _
    · exact Ended.refl s
  · exact Ended.refl s

theorem seeError_ended (s : State) : Ended s (seeError s) := by
  unfold seeError
  split
  · exact endAccess_ended ‹_› _
  · exact Ended.refl s

theorem readyRunsOut_ended (s : State) : Ended s (readyRunsOut s) := by
  unfold readyRunsOut
  split
  · split
    · split
      · exact retryAccess_ended ..
      · exact endAccess_ended ‹_› _
    · exact Ended.refl s
  · exact Ended.refl s

theorem strobeRunsOut_ended (s : State) (lanes : Value) : Ended s (strobeRunsOut s lanes) := by
  unfold strobeRunsOut
  split
  · split
    · exact endAccess_ended ‹_› _
    · exact Ended.refl s
  · exact Ended.refl s

/-! ## Backplane reset (R129, R130) -/

@[simp] theorem clearAttn_line (s : State) (n : LineId) :
    (clearAttn s).line n = { s.line n with count := 0, saturated := false } := by
  simp [clearAttn, State.line]

theorem clearAttn_held (s : State) : Held s (clearAttn s) where
  toSteady := ⟨⟨rfl, fun h => ⟨fun n => by simp, h.2⟩, id, id, id⟩, rfl, rfl⟩
  store := storeInv_congr rfl rfl rfl rfl rfl rfl fun id h => ⟨id, h⟩
  quiet := fun h => ⟨h, rfl⟩
  held := fun h => ⟨h, rfl⟩
  port := id

theorem boardsReset_held (s : State) (src : Nat) : Held s (boardsReset s src) :=
  ((shadow_held s [] fun _ => ⟨Nat.zero_le _, List.nodup_nil, nofun⟩).trans (clearAttn_held _)).trans (raiseEvent_held ..)

@[simp] theorem boardsReset_own (s : State) (src : Nat) : (boardsReset s src).own = s.own := by
  obtain ⟨e, he⟩ := raiseEvent_frame (clearAttn { s with shadow := [] }) .brstReset src 0
  rw [boardsReset, he]; rfl

theorem observeReset_ended (s : State) : Ended s (observeReset s) := by
  unfold observeReset
  refine Ended.trans ?_ (boardsReset_held _ 1).toEnded
  split
  · exact endAccess_ended ‹_› _
  · exact Ended.refl s

theorem brstAsserted_ended (s : State) : Ended s (brstAsserted s) := by
  unfold brstAsserted
  split
  · exact Ended.refl s
  · dsimp only
    refine (own_held s { s.own with brst := true } rfl rfl rfl rfl rfl).toEnded.trans ?_
    split
    · exact Ended.refl _
    · exact observeReset_ended _

theorem isolated_state {s : State} (h : PortInv s) (hm : s.own.mode = .isolated) : s.own.state = .isolated := by
  have := (portWeak h).legal
  rw [hm] at this
  simpa [legalState] using this

theorem answerPulse_held (s : State) (n : Nat) : Held s (answerPulse s n) := by
  unfold answerPulse
  split
  · exact (own_held s { s.own with answers := false } rfl rfl rfl rfl rfl).trans (adminDone_held _ _ _ _ (by simp))
  · exact Held.refl s

theorem endPulse_ended (s : State) : Ended s (endPulse s) := by
  unfold endPulse
  split
  · rename_i hpulse
    dsimp only
    refine Ended.trans ?_ (settles_held _).toEnded
    have hboards := (own_held s { s.own with pulseTimer := none } rfl rfl rfl rfl rfl).trans (boardsReset_held _ 0)
    have k := (hboards.trans ((enterHolding_turned _).held fun p => enterHolding_port p fun hm => ?_)).trans
      (answerPulse_held _ s.shadow.length)
    on_goal 2 =>
      have hst := isolated_state p hm
      simp [hpulse.1] at hst
    split
    · exact k.toEnded.trans (observeReset_ended _)
    · exact k.toEnded
  · exact Ended.refl s

/-! ## Timers -/

theorem grantWaitRunsOut_held (s : State) (c : ChanId) : Held s (grantWaitRunsOut s c) := by
  unfold grantWaitRunsOut
  split
  · exact ((withdraw_work s c).trans (failAccess_work ..)).held.trans (settles_held _)
  · exact Held.refl s

theorem delayRunsOut_held (s : State) (c : ChanId) : Held s (delayRunsOut s c) := by
  unfold delayRunsOut
  split
  · split
    · exact (completeStep_work s c).held.trans (settles_held _)
    · exact Held.refl s
  · exact Held.refl s

theorem stopTimer_work (s : State) (c : ChanId) : ChanWork s (stopTimer s c) :=
  ChanWork.chan s c (ChanKept.outer _ _ rfl rfl rfl rfl rfl)

theorem intervalRunsOut_held (s : State) (c : ChanId) : Held s (intervalRunsOut s c) := by
  unfold intervalRunsOut
  split
  · split
    · exact ((stopTimer_work s c).trans (act_work ..)).held.trans (settles_held _)
    · exact Held.refl s
  · exact Held.refl s

theorem timedOut_work (s : State) (c : ChanId) (st : Step) (e : Status) : ChanWork s (timedOut s c st e) := by
  unfold timedOut
  split
  · exact (warn_work ..).trans (completeStep_work ..)
  · exact failStep_work ..

theorem awaitRunsOut_held (s : State) (c : ChanId) : Held s (awaitRunsOut s c) := by
  unfold awaitRunsOut
  split
  · dsimp only
    split
    · exact ((leaveCounter_work c s _).trans (timedOut_work ..)).held.trans (settles_held _)
    · exact Held.refl s
  · exact Held.refl s

theorem attendRunsOut_held (s : State) (c : ChanId) : Held s (attendRunsOut s c) := by
  unfold attendRunsOut
  split
  · dsimp only
    split
    · exact ((leaveLine_work c s _).trans (timedOut_work ..)).held.trans (settles_held _)
    · exact Held.refl s
  · exact Held.refl s

theorem turnaroundRunsOut_held (s : State) : Held s (turnaroundRunsOut s) := by
  unfold turnaroundRunsOut
  split
  · split
    · rename_i m hp
      refine ((endPassage_turned s m).held fun p => ?_).trans (settles_held _)
      have hm : s.own.mode = .isolated := (portWeak p).passage (by rw [hp]; rfl)
      have hst : s.own.state = .isolated := isolated_state p hm
      obtain ⟨hf, hl⟩ := portInv_free p (by rw [hst]; simp)
      exact endPassage_port m ⟨hf, hl, preemptDue_of_none p hf, fun w e => by
        have := (portWeak p).reset w e
        rw [hm] at this; cases this⟩ hst
    · split
      · rename_i hst
        refine ((enterHolding_turned s).held fun p => enterHolding_port p fun hm => ?_).trans (settles_held _)
        have := isolated_state p hm
        rw [hst] at this; cases this
      · exact Held.refl s
  · exact Held.refl s

theorem leaseRunsOut_held (s : State) : Held s (leaseRunsOut s) := by
  unfold leaseRunsOut
  split
  · exact (own_held s { s.own with leaseTimer := none } rfl rfl rfl rfl rfl).trans (raiseEvent_held ..)
  · exact Held.refl s

theorem lockTimerRunsOut_held (s : State) : Held s (lockTimerRunsOut s) := by
  unfold lockTimerRunsOut
  split
  · split
    · exact own_held s { s.own with lockTimer := none, breakDue := true } rfl rfl rfl rfl rfl
    · exact ((own_held s { s.own with lockTimer := none } rfl rfl rfl rfl rfl).trans (breakLock_work _).held).trans (settles_held _)
  · exact Held.refl s

theorem holdTimerRunsOut_held (s : State) : Held s (holdTimerRunsOut s) := by
  unfold holdTimerRunsOut
  split
  · exact (own_held s { s.own with holdTimer := none, holdPassed := true } rfl rfl rfl rfl rfl).trans (settles_held _)
  · exact Held.refl s

theorem PortCmd.wait_ne_region (cmd : PortCmd) : cmd.wait ≠ .region := by cases cmd <;> simp [PortCmd.wait]

theorem changeTimerRunsOut_held (s : State) : Held s (changeTimerRunsOut s) := by
  unfold changeTimerRunsOut
  split
  · refine Held.trans ⟨own_calm s { s.own with cmd := none, changeTimer := none }, fun h => ?_⟩
      (adminDone_held _ _ _ _ (PortCmd.wait_ne_region _))
    obtain ⟨h1, h2, h3, h4, -, h6⟩ := h
    exact ⟨h1, h2, h3, h4, nofun, h6⟩
  · exact Held.refl s

theorem tick_held (s : State) : Held s (tick s) := by
  unfold tick
  split
  · exact Held.refl s
  · exact clock_held s s.enable (s.timebase + 1)

/-! ## Lines -/

theorem reqRises_held (s : State) : Held s (reqRises s) := by
  unfold reqRises
  split
  · exact Held.refl s
  · exact ((own_held s { s.own with req := true } rfl rfl rfl rfl rfl).trans ((startLockTimer_turned _).held startLockTimer_port)).trans (settles_held _)

theorem endLease_held {s : State} (hm : s.own.mode = .master) (hst : s.own.state = .granted) : Held s (endLease s) := by
  unfold endLease
  dsimp only
  refine (own_held s { s.own with leaseTimer := none } rfl rfl rfl rfl rfl).trans ?_
  split
  · rename_i h
    refine (changeIfWaiting_turned h).held fun p => ?_
    obtain ⟨hf, hl⟩ := portInv_free p (by simp [hst])
    exact changeIfWaiting_port h p hf hl
  · refine (enterSettling_turned _).held fun p => ?_
    obtain ⟨hf, hl⟩ := portInv_free p (by simp [hst])
    exact enterSettling_port p hf hl (by simp [hm])

theorem reqFalls_held (s : State) : Held s (reqFalls s) := by
  unfold reqFalls
  split
  · dsimp only
    refine (own_held s { s.own with req := false, lockTimer := none } rfl rfl rfl rfl rfl).trans ?_
    split
    · rename_i h
      refine Held.trans (endLease_held ?_ ?_) (settles_held _)
      · exact h.1
      · exact h.2
    · exact Held.refl _
  · exact Held.refl s

theorem gntRises_held (s : State) : Held s (gntRises s) := by
  unfold gntRises
  split
  · exact Held.refl s
  · dsimp only
    refine (own_held s { s.own with gnt := true } rfl rfl rfl rfl rfl).trans ?_
    split
    · rename_i h
      refine ((enterSettling_turned _).held fun p => ?_).trans (settles_held _)
      obtain ⟨hf, hl⟩ := portInv_free p (by simp [h.2])
      exact enterSettling_port p hf hl (by simp [h.1])
    · exact Held.refl _

theorem gntFalls_held (s : State) : Held s (gntFalls s) := by
  unfold gntFalls
  split
  · dsimp only
    refine (own_held s { s.own with gnt := false } rfl rfl rfl rfl rfl).trans ?_
    split
    · rename_i hm
      split
      · rename_i hst
        split
        · rename_i hf
          refine ⟨own_calm _ _, fun h => ?_⟩
          obtain ⟨h1, h2, h3, h4, h5, -⟩ := h
          exact ⟨h1, h2, h3, h4, h5, fun _ => ⟨hm, hst, hf⟩⟩
        · rename_i hf
          refine Held.trans ((preempt_turned _).held fun p => preempt_port (portWeak p) ?_ ?_) (settles_held _)
          · exact Option.not_isSome_iff_eq_none.mp hf
          · exact hm
      · exact (askBus_work _).held
    · exact Held.refl _
  · exact Held.refl s

theorem brstReleased_held (s : State) : Held s (brstReleased s) := by
  unfold brstReleased
  split
  · exact (own_held s { s.own with brst := false } rfl rfl rfl rfl rfl).trans (settles_held _)
  · exact Held.refl s

/-- An edge counted stays within the count's bound, on a line configured for it (R149). -/
theorem countEdge_held {s : State} {n : LineId} (hm : (s.line n).mode = .edge) (hr : (s.line n).route = .wait) :
    Held s (countEdge s n) := by
  unfold countEdge
  dsimp only
  split
  · rename_i ws _
    exact (setLine_held s n { s.line n with waiters := ws, saturated := false } id).trans (markReleased_work ..).held
  · split
    · rename_i hlt
      exact setLine_held s n _ fun _ => ⟨hlt, fun _ => ⟨hm, hr⟩⟩
    · exact setLine_held s n _ id

theorem edgeActs_held (s : State) (n : LineId) : Held s (edgeActs s n) := by
  unfold edgeActs
  split
  · exact Held.refl s
  · exact raiseEvent_held ..
  · rename_i hm hr
    exact (countEdge_held hm hr).trans (settles_held _)
  · exact (releaseLine_work ..).held.trans (settles_held _)
  · exact Held.refl s

theorem lineAsserted_held (s : State) (n : LineId) : Held s (lineAsserted s n) := by
  unfold lineAsserted
  split
  · exact Held.refl s
  · dsimp only
    refine (setLine_held s n { s.line n with level := true } id).trans ?_
    split
    · exact Held.refl _
    · exact edgeActs_held ..

/-! ## Resets (R206 to R210) -/

/-- What a reset, and a write of ADMIN_BASE, keeps. -/
structure Restart (s t : State) : Prop extends Lawful s t where
  port : PortInv s → PortInv t
  store : StoreInv s → StoreInv t
  quiet : s.regionWait = none → t.regionWait = none ∧ t.regions = s.regions

theorem Ended.restart {s t : State} (h : Ended s t) : Restart s t := ⟨h.toLawful, h.port, h.store, h.quiet⟩

theorem Held.restart {s t : State} (h : Held s t) : Restart s t := h.toEnded.restart

theorem Restart.refl (s : State) : Restart s s := (Held.refl s).restart

theorem Restart.trans {s t u : State} (h : Restart s t) (g : Restart t u) : Restart s u where
  toLawful := h.toLawful.trans g.toLawful
  port := g.port ∘ h.port
  store := g.store ∘ h.store
  quiet := fun e => ⟨(g.quiet (h.quiet e).1).1, (g.quiet (h.quiet e).1).2.trans (h.quiet e).2⟩

/-- What a bridge reset stops at once, with READY 0 (R206). -/
def stopped (s : State) (cause : ResetCause) : State := { stopAll s with ready := false, cause := cause }

theorem stopped_frame (s : State) (cause : ResetCause) : (stopped s cause).regions = s.regions ∧
    (stopped s cause).regionWait = s.regionWait ∧ (stopped s cause).shadow = s.shadow ∧
    (stopped s cause).arb.inflight = s.arb.inflight ∧ (stopped s cause).pending = s.pending ∧
    (stopped s cause).events = s.events ∧ (stopped s cause).admin.ring = s.admin.ring := ⟨rfl, rfl, rfl, rfl, rfl, rfl, rfl⟩

theorem stopped_line (s : State) (cause : ResetCause) (n : LineId) :
    (stopped s cause).line n = { s.line n with waiters := [] } := by
  simp [stopped, stopAll, waitsOver, State.line]

theorem stopped_counter (s : State) (cause : ResetCause) (k : CounterId) :
    (stopped s cause).counter k = { s.counter k with waiters := [] } := by
  simp [stopped, stopAll, waitsOver, State.counter]

theorem stopped_chan (s : State) (cause : ResetCause) (c : ChanId) :
    ∃ w, (stopped s cause).chan c = { s.chan c with timer := none, wait := w } := by
  simp [stopped, stopAll, waitsOver, State.chan]

theorem stopped_lawful (s : State) (cause : ResetCause) : Lawful s (stopped s cause) where
  pending := rfl
  countInv := fun h => ⟨fun n => by rw [stopped_line]; exact h.1 n, fun k => by rw [stopped_counter]; exact h.2 k⟩
  ringInv := fun h c => by
    obtain ⟨w, e⟩ := stopped_chan s cause c
    rw [e]; exact h c
  linkInv := fun h c => by
    obtain ⟨w, e⟩ := stopped_chan s cause c
    rw [e]; exact h c
  holdingInv := id

theorem stopped_restart {cause : ResetCause} (s : State) (hc : cause ≠ .powerOn) : Restart s (stopped s cause) where
  toLawful := stopped_lawful s cause
  port := fun ⟨h1, h2, h3, h4, _, h6⟩ => ⟨h1, h2, h3, h4, nofun, h6⟩
  store := fun ⟨htable, hstore, hsnap, hwait, hset⟩ =>
    ⟨htable, hstore, hsnap, fun e => ⟨(hwait e).1, by simp [State.initialising, stopped, hc], nofun⟩, hset⟩
  quiet := fun h => ⟨h, rfl⟩

theorem startReset_eq (s : State) (cause : ResetCause) :
    startReset s cause = if s.arb.inflight.isSome then stopped s cause else afterAccessInReset (stopped s cause) := rfl

theorem startReset_restart {cause : ResetCause} (s : State) (hc : cause ≠ .powerOn) : Restart s (startReset s cause) := by
  rw [startReset_eq]
  split
  · exact stopped_restart s hc
  · rename_i hf
    exact (stopped_restart s hc).trans (opened_of_none (s := stopped s cause) (Option.not_isSome_iff_eq_none.mp hf)).reset.restart

/-- With an access in flight a bridge reset leaves the table, and any change that waits goes on waiting (R207). -/
theorem startReset_regions {s : State} (cause : ResetCause) (h : s.arb.inflight.isSome = true) :
    (startReset s cause).regions = s.regions := by
  rw [startReset_eq, if_pos h]
  exact (stopped_frame s cause).1

theorem startReset_sqBase {cause : ResetCause} (s : State) :
    (startReset s cause).admin.ring.sqBase = s.admin.ring.sqBase := by
  rw [startReset_eq]
  split
  · rfl
  · rename_i hf
    exact (opened_of_none (s := stopped s cause) (Option.not_isSome_iff_eq_none.mp hf)).reset.base

theorem startLinkReset_restart (s : State) : Restart s (startLinkReset s) := by
  have k := startReset_restart (cause := .linkReset) s (by simp)
  unfold startLinkReset
  split
  · exact k.trans (observeReset_ended _).restart
  · exact k

theorem startLinkReset_sqBase (s : State) : (startLinkReset s).admin.ring.sqBase = s.admin.ring.sqBase := by
  unfold startLinkReset
  split
  · exact (observeReset_ended _).base.trans (startReset_sqBase s)
  · exact startReset_sqBase s

/-- A transfer that ends leaves the channel owing no more than it owed (R207). -/
theorem endTransfers_restart (s : State) : Restart s (endTransfers s) := by
  refine Restart.trans (t := { s with
    admin := { s.admin with progress := dropAdminTransfer s.admin.progress },
    chans := s.chans.map fun ch => { ch with data := none, fetch := none },
    events := { s.events with write := none },
    vectors := s.vectors.map fun v => { v with messages := 0 } }) ?_ (waitsOver_work _).held.restart
  have hchan (c : ChanId) : State.chan { s with
      admin := { s.admin with progress := dropAdminTransfer s.admin.progress },
      chans := s.chans.map fun ch => { ch with data := none, fetch := none },
      events := { s.events with write := none },
      vectors := s.vectors.map fun v => { v with messages := 0 } } c = { s.chan c with data := none, fetch := none } := by
    simp [State.chan]
  refine ⟨⟨rfl, id, fun h c => ?_, fun h c => ?_, id⟩, id, ?_, fun h => ⟨h, rfl⟩⟩
  · rw [hchan]
    refine ⟨(h c).1, fun o => (h c).2 ⟨o.1, .inl ?_⟩⟩
    rcases o.2 with h | ⟨_, h⟩ | ⟨_, h⟩
    · exact h
    · cases h
    · cases h
  · rw [hchan]; exact h c
  · exact storeInv_congr rfl rfl rfl rfl rfl rfl fun id h => ⟨id, by simp [h, dropAdminTransfer]⟩

theorem linkHotReset_restart (s : State) :
    Restart s (endTransfers (if s.resetting then { s with cause := .linkReset } else startLinkReset s)) := by
  refine Restart.trans ?_ (endTransfers_restart _)
  split
  · rename_i hr
    refine ⟨Lawful.of_eq rfl rfl rfl rfl rfl, id, fun ⟨htable, hstore, hsnap, hwait, hset⟩ =>
      ⟨htable, hstore, hsnap, fun e => ⟨(hwait e).1, by simp [State.initialising], (hwait e).2.2⟩, hset⟩, fun h => ⟨h, rfl⟩⟩
  · exact startLinkReset_restart s

theorem linkHotReset_sqBase (s : State) :
    (endTransfers (if s.resetting then { s with cause := .linkReset } else startLinkReset s)).admin.ring.sqBase =
      s.admin.ring.sqBase := by
  have h (t : State) : (endTransfers t).admin.ring.sqBase = t.admin.ring.sqBase := rfl
  rw [h]
  split
  · rfl
  · exact startLinkReset_sqBase s

theorem nothingInFlight_inflight {s : State} (h : nothingInFlight s = true) : s.arb.inflight = none := by
  simp only [nothingInFlight, Bool.and_eq_true, Option.isNone_iff_eq_none] at h
  exact h.1.1.1.1

theorem resetValues_restart {s : State} (hf : s.arb.inflight = none) : Restart s (resetValues s) where
  pending := rfl
  port := fun h => by
    obtain ⟨-, -, h3, h4, h5, h6⟩ := h
    exact ⟨nofun, nofun, h3, h4, h5, fun hd => absurd (h6 hd).2.2 (by simp [hf])⟩
  countInv := fun h => by
    refine ⟨fun n => ?_, fun k => ?_⟩
    · have e : (resetValues s).line n = { s.line n with waiters := [] } := by simp [resetValues, State.line]
      rw [e]; exact h.1 n
    · simp [resetValues, State.counter, SyncCounter.reset]
  ringInv := fun _ c => by
    have e : (resetValues s).chan c = Channel.reset := by simp [resetValues, State.chan]
    rw [e]; simp [Channel.reset, Owes]
  linkInv := fun _ c => by
    have e : (resetValues s).chan c = Channel.reset := by simp [resetValues, State.chan]
    intro sc hsc
    rw [e] at hsc
    simp [Channel.reset] at hsc
  holdingInv := fun _ => by simp [HoldingInv, resetValues, EventUnit.reset]
  store := fun ⟨htable, hstore, _, hwait, hset⟩ => by
    have hnone : s.regionWait = none := by
      cases hw : s.regionWait with
      | none => rfl
      | some ch => have := (hwait (by rw [hw]; rfl)).1; rw [hf] at this; cases this
    refine ⟨htable, hstore, fun _ hf => (by cases hf), fun e => ?_, hset⟩
    have e : s.regionWait.isSome = true := e
    rw [hnone] at e; cases e
  quiet := fun h => ⟨h, rfl⟩

theorem resetComplete_restart (s : State) :
    Restart s (if s.resetting && nothingInFlight s then resetValues s else s) := by
  split
  · rename_i h
    rw [Bool.and_eq_true] at h
    exact resetValues_restart (nothingInFlight_inflight h.2)
  · exact Restart.refl s

end Sys2Proof.Machine
end

section
/-! PROOF. What each command keeps, by the class of the command, and the statements of the laws that every step keeps: the queue,
the store and the table, the port, the rings, the counts, the link stacks and the holding set, and of what changes the table, READY and
ADMIN_BASE. -/

namespace Sys2Proof.Machine

open Sys2Proof.Safety

/-! ## The classes of the commands -/

/-- What a command may reach of the Region Table and of READY. -/
inductive Reach where
  /-- Neither the table nor READY. -/
  | plain
  /-- The table. -/
  | region
  /-- The end of an access, and with it a region change that waits. -/
  | access
  /-- A reset, or the place of the admin rings. -/
  | reset
  deriving DecidableEq

/-- The class of a command. -/
def reachOf : Instr → Reach
  | .setRegion _ | .clearRegion _ => .region
  | .accessDone _ | .strobeEnd _ | .targetError | .readyTimeout | .observedReset | .pulseEnd => .access
  | .bridgeReset _ | .linkHotReset | .bridgeResetComplete | .powerOn | .powerOnInitialisationEnd | .adminBase _ => .reset
  | _ => .plain

/-- What every command keeps. -/
structure Sound (s t : State) : Prop extends Lawful s t where
  store : StoreInv s → StoreInv t
  port : PortInv s → PortInv t

theorem Stored.sound {s t : State} (h : Stored s t) : Sound s t := ⟨h.toLawful, h.store, h.port⟩

theorem Restart.sound {s t : State} (h : Restart s t) : Sound s t := ⟨h.toLawful, h.store, h.port⟩

/-! ## Each command -/

theorem readWriteEnd_held (s : State) (c : ChanId) (ok : Bool) :
    Held s (match (s.chan c).data with | some (.readWrite _) => endStepData s c (readWritten ok c) | _ => s) := by
  split
  · exact endStepData_held s c _ (readWritten_work ok c)
  · exact Held.refl s

theorem slotWriteEnd_held (s : State) (c : ChanId) (ok : Bool) :
    Held s (match (s.chan c).data with | some (.slotWrite _) => endStepData s c (slotWritten ok c) | _ => s) := by
  split
  · exact endStepData_held s c _ (slotWritten_work ok c)
  · exact Held.refl s

theorem slotReadEnd_held (s : State) (c : ChanId) (v : Option Value) :
    Held s (match (s.chan c).data with | some (.slotRead _) => endStepData s c (slotRead v c) | _ => s) := by
  split
  · exact endStepData_held s c _ (slotRead_work v c)
  · exact Held.refl s

/-- A write that has no effect while READY is 0. -/
theorem held_ite {b : Prop} [Decidable b] {s t : State} (h : Held s t) : Held s (if b then t else s) := by
  split
  · exact h
  · exact Held.refl s

/-- An admin command that is none to a channel. -/
theorem command_held {rec : Record32} {k : AdminCode} {act : State → BitVec 16 → State} (s : State)
    (h : ∀ s id, Reading s → Held s (act s id)) : Held s (takeCommand s rec k act) :=
  takeCommand_held s fun s id _ hread => h s id hread

theorem exec_plain (i : Instr) (s : State) (h : reachOf i = .plain) : ∃ t, exec i s = .next t ∧ Held s t := by
  cases i with
  | configureChannel rec => exact ⟨_, rfl, channelCommand_held s fun c s id hr ha hi => configure_held rec c s id hr ha hi⟩
  | startChannel rec => exact ⟨_, rfl, channelCommand_held s fun c s id hr ha _ => start_held c s id hr ha⟩
  | pauseChannel rec => exact ⟨_, rfl, channelCommand_held s fun c s id hr _ _ => pause_held c s id hr⟩
  | abortChannel rec => exact ⟨_, rfl, channelCommand_held s fun c s id hr ha _ => abort_held rec c s id hr ha⟩
  | abortChannelFlush rec => exact ⟨_, rfl, channelCommand_held s fun c s id hr ha _ => abort_held rec c s id hr ha⟩
  | releaseChannel rec => exact ⟨_, rfl, channelCommand_held s fun c s id hr _ _ => release_held c s id hr⟩
  | queryChannel rec => exact ⟨_, rfl, channelCommand_held s fun c s id hr _ _ => setProgressA_held _ hr.notRegion⟩
  | queryRegions rec => exact ⟨_, rfl, command_held s fun s id hr => query_held _ s id _ _ _ hr⟩
  | setPortMode rec => exact ⟨_, rfl, command_held s fun s id hr => setPortMode_held rec s id hr⟩
  | backplaneReset rec => exact ⟨_, rfl, command_held s fun s id hr => backplaneReset_held rec s id hr⟩
  | seedShadow rec => exact ⟨_, rfl, command_held s fun s id hr => seedShadow_held rec s id hr⟩
  | purgeShadow rec => exact ⟨_, rfl, command_held s fun s id hr => purgeShadow_held rec s id hr⟩
  | queryShadow rec => exact ⟨_, rfl, command_held s fun s id hr => query_held _ s id _ _ _ hr⟩
  | setAttention rec => exact ⟨_, rfl, command_held s fun s id hr => setAttention_held rec s id hr⟩
  | setSync rec => exact ⟨_, rfl, command_held s fun s id hr => setSync_held rec s id hr⟩
  | configureEvents rec => exact ⟨_, rfl, command_held s fun s id hr => configureEvents_held rec s id hr⟩
  | unknownCommand rec => exact ⟨_, rfl, takeUnknown_held rec s⟩
  | commandReadStart => exact ⟨_, rfl, startCommandRead_held s⟩
  | commandReadFault => exact ⟨_, rfl, commandReadFails_held s⟩
  | adminCompletionWriteEnd ok => exact ⟨_, rfl, endAdminWrite_held s ok⟩
  | snapshotWriteEnd ok => exact ⟨_, rfl, endSnapshot_held s ok⟩
  | enable value => exact ⟨_, rfl, held_ite (clock_held s value s.timebase)⟩
  | intr word => exact ⟨_, rfl, held_ite (vectors_held s _)⟩
  | channelQueueIndexWrite c word => exact ⟨_, rfl, held_ite (writeIndices_held s c _ _)⟩
  | adminQueueIndexWrite word => exact ⟨_, rfl, held_ite (writeAdminIndices_held s _ _)⟩
  | eventQueueIndexWrite word => exact ⟨_, rfl, held_ite (writeEventHead_held s _)⟩
  | noRegisterWrite off size value => exact ⟨_, rfl, Held.refl s⟩
  | requestTake c => exact ⟨_, rfl, takeRequest_held s c⟩
  | requestReadEnd c r => exact ⟨_, rfl, endRequestRead_held s c r⟩
  | flushRequestReadEnd c r => exact ⟨_, rfl, endFlushRead_held s c r⟩
  | stepFetchEnd c r => exact ⟨_, rfl, endFetch_held s c r⟩
  | readHostWriteEnd c ok => exact ⟨_, rfl, readWriteEnd_held s c ok⟩
  | blockInSlotWriteEnd c ok => exact ⟨_, rfl, slotWriteEnd_held s c ok⟩
  | blockOutSlotReadEnd c v => exact ⟨_, rfl, slotReadEnd_held s c v⟩
  | completionWriteEnd c ok => exact ⟨_, rfl, endCompletion_held s c ok⟩
  | eventWriteEnd ok => exact ⟨_, rfl, endEventWrite_held s ok⟩
  | messageEnd v ok => exact ⟨_, rfl, endMessage_held s v ok⟩
  | write c => exact ⟨_, rfl, carryOut_held s c .write⟩
  | read c => exact ⟨_, rfl, carryOut_held s c .read⟩
  | modify c => exact ⟨_, rfl, carryOut_held s c .modify⟩
  | poll c => exact ⟨_, rfl, carryOut_held s c .poll⟩
  | blockIn c => exact ⟨_, rfl, carryOut_held s c .blockIn⟩
  | blockOut c => exact ⟨_, rfl, carryOut_held s c .blockOut⟩
  | call c => exact ⟨_, rfl, carryOut_held s c .call⟩
  | endStep c => exact ⟨_, rfl, carryOut_held s c .endStep⟩
  | delay c => exact ⟨_, rfl, carryOut_held s c .delay⟩
  | signal c => exact ⟨_, rfl, carryOut_held s c .signal⟩
  | await c => exact ⟨_, rfl, carryOut_held s c .await⟩
  | attend c => exact ⟨_, rfl, carryOut_held s c .attend⟩
  | grantWaitExpiry c => exact ⟨_, rfl, grantWaitRunsOut_held s c⟩
  | delayExpiry c => exact ⟨_, rfl, delayRunsOut_held s c⟩
  | pollIntervalExpiry c => exact ⟨_, rfl, intervalRunsOut_held s c⟩
  | awaitTimeout c => exact ⟨_, rfl, awaitRunsOut_held s c⟩
  | attendTimeout c => exact ⟨_, rfl, attendRunsOut_held s c⟩
  | turnaroundExpiry => exact ⟨_, rfl, turnaroundRunsOut_held s⟩
  | leaseExpiry => exact ⟨_, rfl, leaseRunsOut_held s⟩
  | lockTimerExpiry => exact ⟨_, rfl, lockTimerRunsOut_held s⟩
  | holdTimerExpiry => exact ⟨_, rfl, holdTimerRunsOut_held s⟩
  | changeTimerExpiry => exact ⟨_, rfl, changeTimerRunsOut_held s⟩
  | timebaseWrap => exact ⟨_, rfl, held_ite (clock_held s s.enable 0)⟩
  | reqRise => exact ⟨_, rfl, reqRises_held s⟩
  | reqFall => exact ⟨_, rfl, reqFalls_held s⟩
  | gntRise => exact ⟨_, rfl, gntRises_held s⟩
  | gntFall => exact ⟨_, rfl, gntFalls_held s⟩
  | brstRelease => exact ⟨_, rfl, brstReleased_held s⟩
  | assertionEdge n => exact ⟨_, rfl, lineAsserted_held s n⟩
  | attentionLineRelease n => exact ⟨_, rfl, setLine_held s n _ id⟩
  | _ => cases h

theorem exec_region (i : Instr) (s : State) (h : reachOf i = .region) : ∃ t, exec i s = .next t ∧ Stored s t := by
  cases i with
  | setRegion rec => exact ⟨_, rfl, takeCommand_stored s fun s id hready hr => setRegion_stored rec id hready hr⟩
  | clearRegion rec => exact ⟨_, rfl, takeCommand_stored s fun s id hready hr => clearRegion_stored rec id hready hr⟩
  | _ => cases h

theorem exec_access (i : Instr) (s : State) (h : reachOf i = .access) : ∃ t, exec i s = .next t ∧ Ended s t := by
  cases i with
  | accessDone v => exact ⟨_, rfl, seeReady_ended s v⟩
  | strobeEnd v => exact ⟨_, rfl, strobeRunsOut_ended s v⟩
  | targetError => exact ⟨_, rfl, seeError_ended s⟩
  | readyTimeout => exact ⟨_, rfl, readyRunsOut_ended s⟩
  | observedReset => exact ⟨_, rfl, brstAsserted_ended s⟩
  | pulseEnd => exact ⟨_, rfl, endPulse_ended s⟩
  | _ => cases h

theorem exec_bridgeReset (b : Bool) (s : State) : ∃ t, exec (.bridgeReset b) s = .next t ∧ Restart s t ∧
    (s.arb.inflight.isSome = true → t.regions = s.regions) ∧ t.admin.ring.sqBase = s.admin.ring.sqBase := by
  refine ⟨_, rfl, ?_⟩
  split
  · exact ⟨startReset_restart s (by simp), startReset_regions _, startReset_sqBase s⟩
  · exact ⟨Restart.refl s, fun _ => rfl, rfl⟩

/-- The end of the initialisation: no region change waits there, and READY goes up (R210). -/
theorem initialisationEnd_restart (s : State) : Restart s (if s.initialising then
      let s := { s with ready := true, timebase := 0 }
      if s.own.brst then observeReset s else s
    else s) := by
  split
  · rename_i hi
    dsimp only
    have k : Restart s { s with ready := true, timebase := 0 } :=
      ⟨Lawful.of_eq rfl rfl rfl rfl rfl, id, fun ⟨htable, hstore, hsnap, hwait, hset⟩ =>
        ⟨htable, hstore, hsnap, fun e => absurd (hwait e).2.1 (by simp [hi]), hset⟩, fun h => ⟨h, rfl⟩⟩
    split
    · exact k.trans (observeReset_ended _).restart
    · exact k
  · exact Restart.refl s

theorem initialisationEnd_sqBase (s : State) : (if s.initialising then
      let s := { s with ready := true, timebase := 0 }
      if s.own.brst then observeReset s else s
    else s).admin.ring.sqBase = s.admin.ring.sqBase := by
  split
  · dsimp only
    split
    · exact (observeReset_ended _).base
    · rfl
  · rfl

/-- The place of the admin rings is none of what the laws speak of. -/
theorem adminBase_restart (s : State) (w : BaseWrite) : Restart s (if baseTaken s then
    { s with admin := { s.admin with ring := adminRings (baseAfter s.admin.ring.sqBase w) } } else s) := by
  split
  · exact ⟨Lawful.of_eq rfl rfl rfl rfl rfl, id, storeInv_congr rfl rfl rfl rfl rfl rfl fun id h => ⟨id, h⟩, fun h => ⟨h, rfl⟩⟩
  · exact Restart.refl s

/-! ## Power-on (R210) -/

theorem chan_reset (c : ChanId) : State.reset.chan c = Channel.reset := by simp [State.reset, State.chan]

theorem counter_reset (k : CounterId) : State.reset.counter k = SyncCounter.reset := by simp [State.reset, State.counter]

theorem line_reset (n : LineId) : State.reset.line n = AttnLine.reset := by simp [State.reset, State.line]

theorem region_reset (i : RegionId) : State.reset.region i = none := by simp [State.reset, State.region]

theorem storeInv_reset : StoreInv State.reset := by
  refine ⟨fun i j g h _ hg => ?_, ⟨Nat.zero_le _, List.nodup_nil, nofun⟩, nofun, nofun, nofun⟩
  rw [region_reset] at hg; cases hg

theorem portInv_reset : PortInv State.reset := ⟨nofun, nofun, rfl, nofun, nofun, nofun⟩

theorem ringInv_reset : RingInv State.reset := fun c => by
  rw [chan_reset]; simp [Channel.reset, Owes]

theorem linkInv_reset : LinkInv State.reset := fun c sc h => by
  rw [chan_reset] at h; simp [Channel.reset] at h

theorem countInv_reset : CountInv State.reset :=
  ⟨fun n => by rw [line_reset]; simp [AttnLine.reset], fun k => by rw [counter_reset]; simp [SyncCounter.reset]⟩

theorem holdingInv_reset : HoldingInv State.reset := List.nodup_nil

theorem line_keepLevels (s t : State) (n : LineId) :
    (keepLevels s t).line n = { t.line n with level := (s.line n).level } := by
  simp [keepLevels, State.line]

theorem powerOn_sound (s : State) : Sound s (keepLevels s State.reset) where
  pending := rfl
  countInv := fun _ => ⟨fun n => by rw [line_keepLevels]; exact countInv_reset.1 n, countInv_reset.2⟩
  ringInv := fun _ => ringInv_reset
  linkInv := fun _ => linkInv_reset
  holdingInv := fun _ => holdingInv_reset
  store := fun _ => storeInv_congr rfl rfl rfl rfl rfl rfl (fun id h => ⟨id, h⟩) storeInv_reset
  port := fun _ => ⟨nofun, nofun, rfl, nofun, nofun, nofun⟩

/-! ## Every command -/

theorem exec_sound (i : Instr) (s : State) : ∃ t, exec i s = .next t ∧ Sound s t := by
  cases hr : reachOf i with
  | plain =>
    obtain ⟨t, he, h⟩ := exec_plain i s hr
    exact ⟨t, he, h.stored.sound⟩
  | region =>
    obtain ⟨t, he, h⟩ := exec_region i s hr
    exact ⟨t, he, h.sound⟩
  | access =>
    obtain ⟨t, he, h⟩ := exec_access i s hr
    exact ⟨t, he, h.stored.sound⟩
  | reset =>
    cases i with
    | bridgeReset b =>
      obtain ⟨t, he, h, -⟩ := exec_bridgeReset b s
      exact ⟨t, he, h.sound⟩
    | linkHotReset => exact ⟨_, rfl, (linkHotReset_restart s).sound⟩
    | bridgeResetComplete => exact ⟨_, rfl, (resetComplete_restart s).sound⟩
    | powerOn => exact ⟨_, rfl, powerOn_sound s⟩
    | powerOnInitialisationEnd => exact ⟨_, rfl, (initialisationEnd_restart s).sound⟩
    | adminBase w => exact ⟨_, rfl, (adminBase_restart s w).sound⟩
    | _ => cases hr

theorem sound_of_exec {i : Instr} {s t : State} (h : exec i s = .next t) : Sound s t := by
  obtain ⟨u, hu, hs⟩ := exec_sound i s
  rw [hu] at h
  cases h
  exact hs

/-- Taking a command off the queue touches none of the other laws, and neither does a µs that passes. -/
theorem step_sound {s t : State} (h : step s = .next t) : ∃ q : List Instr, Sound { s with pending := q } t := by
  unfold step at h
  split at h
  · rename_i rest _
    exact ⟨rest, sound_of_exec h⟩
  · cases h
    exact ⟨s.pending, (tick_held s).stored.sound⟩

/-- Settles O3, by the class of the command: none of them reaches the queue. -/
theorem queueUntouched : Obligations.QueueUntouched := fun _ _ _ h => (sound_of_exec h).pending

/-- Settles O10, by what every command keeps. -/
theorem storeInvKept : Obligations.StoreInvKept := by
  intro s t hs h
  obtain ⟨q, k⟩ := step_sound h
  exact k.store hs

/-- Settles O11, by what every command keeps. -/
theorem portInvKept : Obligations.PortInvKept := by
  intro s t hs h
  obtain ⟨q, k⟩ := step_sound h
  exact k.port hs

/-- Settles O12, by what every command keeps. -/
theorem ringInvKept : Obligations.RingInvKept := by
  intro s t hs h
  obtain ⟨q, k⟩ := step_sound h
  exact k.ringInv hs

/-- Settles O13, by what every command keeps. -/
theorem countInvKept : Obligations.CountInvKept := by
  intro s t hs h
  obtain ⟨q, k⟩ := step_sound h
  exact k.countInv hs

/-- Settles O14, by what every command keeps. -/
theorem linkInvKept : Obligations.LinkInvKept := by
  intro s t hs h
  obtain ⟨q, k⟩ := step_sound h
  exact k.linkInv hs

/-- Settles O15, by what every command keeps. -/
theorem holdingInvKept : Obligations.HoldingInvKept := by
  intro s t hs h
  obtain ⟨q, k⟩ := step_sound h
  exact k.holdingInv hs

/-- Settles O16, law by law. -/
theorem resetMeetsLaws : Obligations.ResetMeetsLaws :=
  ⟨storeInv_reset, portInv_reset, ringInv_reset, countInv_reset, linkInv_reset, holdingInv_reset⟩

/-! ## What changes the table, READY and ADMIN_BASE -/

/-- Where a region change may have acted, one was waiting. -/
theorem wait_of_regions_ne {s t : State} (hq : s.regionWait = none → t.regionWait = none ∧ t.regions = s.regions)
    (h : t.regions ≠ s.regions) : s.regionWait.isSome = true := by
  by_contra hw
  exact h (hq (Option.not_isSome_iff_eq_none.mp hw)).2

/-- Settles O17, by the class of the command. -/
theorem tableChangesOnly : Obligations.TableChangesOnly := by
  intro i s t he hne
  cases hr : reachOf i with
  | plain =>
    obtain ⟨u, hu, k⟩ := exec_plain i s hr
    rw [hu] at he; cases he
    exact .inr (.inr (.inr ⟨wait_of_regions_ne k.quiet hne, fun hf => absurd (k.held hf).2 hne⟩))
  | region =>
    cases i with
    | setRegion r => exact .inl ⟨r, rfl⟩
    | clearRegion r => exact .inr (.inl ⟨r, rfl⟩)
    | _ => cases hr
  | access =>
    obtain ⟨u, hu, k⟩ := exec_access i s hr
    rw [hu] at he; cases he
    refine .inr (.inr (.inr ⟨wait_of_regions_ne k.quiet hne, fun _ => ?_⟩))
    cases i with
    | accessDone v => exact .inl ⟨v, rfl⟩
    | strobeEnd v => exact .inr (.inl ⟨v, rfl⟩)
    | targetError => simp
    | readyTimeout => simp
    | observedReset => simp
    | pulseEnd => simp
    | _ => cases hr
  | reset =>
    cases i with
    | bridgeReset b =>
      obtain ⟨u, hu, k, hk, -⟩ := exec_bridgeReset b s
      rw [hu] at he; cases he
      exact .inr (.inr (.inr ⟨wait_of_regions_ne k.quiet hne, fun hf => absurd (hk hf) hne⟩))
    | linkHotReset =>
      cases he
      exact .inr (.inr (.inr ⟨wait_of_regions_ne (linkHotReset_restart s).quiet hne, fun _ => by simp⟩))
    | bridgeResetComplete =>
      cases he
      refine absurd ?_ hne
      split <;> rfl
    | powerOn => exact .inr (.inr (.inl rfl))
    | powerOnInitialisationEnd =>
      cases he
      exact .inr (.inr (.inr ⟨wait_of_regions_ne (initialisationEnd_restart s).quiet hne, fun _ => by simp⟩))
    | adminBase w =>
      cases he
      refine absurd ?_ hne
      split <;> rfl
    | _ => cases hr

/-- Settles O18, by the class of the command. -/
theorem readyAndBaseChangeOnly : Obligations.ReadyAndBaseChangeOnly := by
  intro i s t he
  have steady {a b : Prop} (k : Steady s t) : (t.ready ≠ s.ready → a) ∧ (t.admin.ring.sqBase ≠ s.admin.ring.sqBase → b) :=
    ⟨fun h => absurd k.ready h, fun h => absurd k.base h⟩
  cases hr : reachOf i with
  | plain =>
    obtain ⟨u, hu, k⟩ := exec_plain i s hr
    rw [hu] at he; cases he
    exact steady k.toSteady
  | region =>
    obtain ⟨u, hu, k⟩ := exec_region i s hr
    rw [hu] at he; cases he
    exact steady k.toSteady
  | access =>
    obtain ⟨u, hu, k⟩ := exec_access i s hr
    rw [hu] at he; cases he
    exact steady k.toSteady
  | reset =>
    cases i with
    | bridgeReset b =>
      obtain ⟨u, hu, -, -, hb⟩ := exec_bridgeReset b s
      rw [hu] at he; cases he
      exact ⟨fun _ => .inl ⟨b, rfl⟩, fun h => absurd hb h⟩
    | linkHotReset =>
      cases he
      exact ⟨fun _ => by simp, fun h => absurd (linkHotReset_sqBase s) h⟩
    | bridgeResetComplete => exact ⟨fun _ => by simp, fun _ => by simp⟩
    | powerOn => exact ⟨fun _ => by simp, fun _ => by simp⟩
    | powerOnInitialisationEnd =>
      cases he
      exact ⟨fun _ => by simp, fun h => absurd (initialisationEnd_sqBase s) h⟩
    | adminBase w =>
      cases he
      refine ⟨fun h => absurd ?_ h, fun _ => .inl ⟨w, rfl⟩⟩
      split <;> rfl
    | _ => cases hr

end Sys2Proof.Machine
end

section
/-! PROOF. The step, the writes while READY is 0, the bytes of numbers in records, the admin completion, and the examination of a
waiter list. -/

namespace Sys2Proof.Machine

open Sys2Proof.Safety

/-! ## The step and the register writes -/

/-- Settles O1, by the definition of the step. -/
theorem stepRunsFront : Obligations.StepRunsFront := by
  intro s i rest h
  unfold step
  rw [h]

theorem initialising_iff (s : State) : s.initialising = true ↔ s.ready = false ∧ s.cause = .powerOn := by
  simp [State.initialising]

/-- Settles O2, by whether the bridge initialises. -/
theorem idleStepTicks : Obligations.IdleStepTicks := by
  intro s h
  have htick : step s = .next (tick s) := by unfold step; rw [h]
  rw [htick, tick]
  cases hi : s.initialising with
  | true =>
    obtain ⟨hready, hcause⟩ := (initialising_iff s).mp hi
    rw [if_pos rfl, if_neg (by simp [hready, hcause])]
  | false =>
    have hn := mt (initialising_iff s).mpr (by simp [hi])
    have hc : s.ready = true ∨ s.cause ≠ .powerOn := by
      cases hr : s.ready with
      | true => exact .inl rfl
      | false => exact .inr fun hp => hn ⟨hr, hp⟩
    rw [if_neg (by simp), if_pos hc]

/-- Settles O19: each register's meaning is guarded by READY. -/
theorem writesIgnoredNotReady : Obligations.WritesIgnoredNotReady := by
  intro s h
  have guarded (t : State) : (.next (if s.ready then t else s) : Host.Outcome State Fault Refusal) = .next s := by
    rw [if_neg (by simp [h])]
  refine ⟨fun b => guarded _, fun b => guarded _, fun w => ?_, fun w => guarded _, fun c w => guarded _, fun w => guarded _,
    fun w => guarded _⟩
  have hbase : baseTaken s = false := by simp [baseTaken, h]
  exact congrArg Host.Outcome.next (if_neg (by simp [hbase]))

/-! ## The bytes of a number, least significant first (R213) -/

/-- A byte of a word is the word's bits at its offset. -/
theorem ofNat_byte {n : Nat} (w : BitVec n) (k : Nat) : BitVec.ofNat 8 (w.toNat / 2 ^ k) = w.extractLsb' k 8 := by
  apply BitVec.eq_of_toNat_eq
  simp [BitVec.extractLsb'_toNat, Nat.shiftRight_eq_div_pow]

theorem leBytes_one (v : Nat) : leBytes 1 v = [BitVec.ofNat 8 v] := rfl

theorem leBytes_two (v : Nat) : leBytes 2 v = [BitVec.ofNat 8 v, BitVec.ofNat 8 (v / 256)] := rfl

theorem leBytes_three (v : Nat) :
    leBytes 3 v = [BitVec.ofNat 8 v, BitVec.ofNat 8 (v / 256), BitVec.ofNat 8 (v / 65536)] := by
  simp [leBytes, Nat.div_div_eq_div_mul]

theorem leBytes_four (v : Nat) : leBytes 4 v =
    [BitVec.ofNat 8 v, BitVec.ofNat 8 (v / 256), BitVec.ofNat 8 (v / 65536), BitVec.ofNat 8 (v / 16777216)] := by
  simp [leBytes, Nat.div_div_eq_div_mul]

theorem leBytes_word2 {n : Nat} (w : BitVec n) : leBytes 2 w.toNat = [w.extractLsb' 0 8, w.extractLsb' 8 8] := by
  rw [leBytes_two, ← ofNat_byte w 0, ← ofNat_byte w 8, pow_zero, Nat.div_one]
  rfl

theorem leBytes_word3 {n : Nat} (w : BitVec n) :
    leBytes 3 w.toNat = [w.extractLsb' 0 8, w.extractLsb' 8 8, w.extractLsb' 16 8] := by
  rw [leBytes_three, ← ofNat_byte w 0, ← ofNat_byte w 8, ← ofNat_byte w 16, pow_zero, Nat.div_one]
  rfl

theorem leBytes_word4 {n : Nat} (w : BitVec n) :
    leBytes 4 w.toNat = [w.extractLsb' 0 8, w.extractLsb' 8 8, w.extractLsb' 16 8, w.extractLsb' 24 8] := by
  rw [leBytes_four, ← ofNat_byte w 0, ← ofNat_byte w 8, ← ofNat_byte w 16, ← ofNat_byte w 24, pow_zero, Nat.div_one]
  rfl

theorem leBytes_zero (n : Nat) : leBytes n 0 = List.replicate n 0 := by
  induction n with
  | zero => rfl
  | succ n ih => rw [leBytes, Nat.zero_div, ih]; rfl

/-! ## The admin completion (R181) -/

theorem ofNat_phaseBit (p : Bool) : BitVec.ofNat 8 (phaseBit p) = if p then 1 else 0 := by cases p <;> rfl

theorem adminCompletionBytes_eq (id : BitVec 16) (st : AdminStatus) (phase : Bool) (head : Nat) (d : Detail) :
    adminCompletionBytes id st phase head d =
      [id.extractLsb' 0 8, id.extractLsb' 8 8, st.code, if phase then 1 else 0, BitVec.ofNat 8 head,
        BitVec.ofNat 8 (head / 256), 0, 0, d.extractLsb' 0 8, d.extractLsb' 8 8, d.extractLsb' 16 8, d.extractLsb' 24 8,
        0, 0, 0, 0] := by
  unfold adminCompletionBytes
  rw [leBytes_word2, leBytes_word4, leBytes_one, leBytes_two, leBytes_zero, leBytes_zero, ofNat_phaseBit]
  rfl

/-- Settles O4, by whether ADMIN_FAULT is set. -/
theorem adminAnswerWrites : Obligations.AdminAnswerWrites := by
  intro s id st d
  rw [← adminCompletionBytes_eq]
  unfold adminAnswer
  split
  · rfl
  · rfl

/-! ## The examination of a waiter list (R158) -/

/-- An entry is released behind those ahead of it. -/
def walkReleases (v : Nat) (held : Bool) (ahead : List SyncWaiter) (w : SyncWaiter) : Prop :=
  w.threshold ≤ (syncWalk v held ahead).1 ∧
    (w.consume = true → held = false ∧ ∀ x ∈ (syncWalk v held ahead).2.1, x.consume = false)

theorem syncWalk_released {v : Nat} {held : Bool} {ahead : List SyncWaiter} {w : SyncWaiter}
    (h : walkReleases v held ahead w) : syncWalk v held (ahead ++ [w]) =
      ((syncWalk v held ahead).1 - (if w.consume then w.threshold else 0), (syncWalk v held ahead).2.1,
        (syncWalk v held ahead).2.2 ++ [w.chan]) := by
  induction ahead generalizing v held with
  | nil =>
    obtain ⟨hle, hcons⟩ := h
    have hle : w.threshold ≤ v := hle
    cases hc : w.consume with
    | false => simp [syncWalk, hc, hle]
    | true => simp [syncWalk, hc, hle, (hcons hc).1]
  | cons x xs ih =>
    unfold walkReleases at h
    simp only [List.cons_append, syncWalk] at h ⊢
    split at h
    · rename_i hx
      split at h
      · rename_i hsat
        rw [if_pos hx, if_pos hsat, if_pos hx, if_pos hsat, ih h]
        rfl
      · rename_i hsat
        have hcons : w.consume = false := by
          by_contra hc
          have := (h.2 (by simpa using hc)).2 x (List.mem_cons_self ..)
          rw [hx] at this; cases this
        rw [if_pos hx, if_neg hsat, if_pos hx, if_neg hsat, ih ⟨h.1, fun e => by rw [hcons] at e; cases e⟩]
    · rename_i hx
      split at h
      · rename_i hsat
        rw [if_neg hx, if_pos hsat, if_neg hx, if_pos hsat, ih h]
        rfl
      · rename_i hsat
        rw [if_neg hx, if_neg hsat, if_neg hx, if_neg hsat,
          ih ⟨h.1, fun e => ⟨(h.2 e).1, fun y hy => (h.2 e).2 y (List.mem_cons_of_mem _ hy)⟩⟩]

theorem syncWalk_stays {v : Nat} {held : Bool} {ahead : List SyncWaiter} {w : SyncWaiter}
    (h : ¬ walkReleases v held ahead w) : syncWalk v held (ahead ++ [w]) =
      ((syncWalk v held ahead).1, (syncWalk v held ahead).2.1 ++ [w], (syncWalk v held ahead).2.2) := by
  induction ahead generalizing v held with
  | nil =>
    unfold walkReleases at h
    simp only [syncWalk, List.not_mem_nil, false_imp_iff, implies_true, and_true, not_and_or] at h
    cases hc : w.consume with
    | false => simp_all [syncWalk]
    | true => cases held <;> simp_all [syncWalk]
  | cons x xs ih =>
    unfold walkReleases at h
    simp only [List.cons_append, syncWalk] at h ⊢
    split at h
    · rename_i hx
      split at h
      · rename_i hsat
        rw [if_pos hx, if_pos hsat, if_pos hx, if_pos hsat, ih h]
      · rename_i hsat
        have hne : ¬ walkReleases v true xs w := fun k => h ⟨k.1, fun e => absurd (k.2 e).1 (by simp)⟩
        rw [if_pos hx, if_neg hsat, if_pos hx, if_neg hsat, ih hne]
        rfl
    · rename_i hx
      split at h
      · rename_i hsat
        rw [if_neg hx, if_pos hsat, if_neg hx, if_pos hsat, ih h]
      · rename_i hsat
        have hne : ¬ walkReleases v held xs w := fun k => h ⟨k.1, fun e => ⟨(k.2 e).1, fun y hy => by
          rcases List.mem_cons.mp hy with rfl | hy
          · simpa using hx
          · exact (k.2 e).2 y hy⟩⟩
        rw [if_neg hx, if_neg hsat, if_neg hx, if_neg hsat, ih hne]
        rfl

/-- The channel with its step released from the waiter list it stood on. -/
def releasedChan (b : Bool) (ch : Channel) : Channel :=
  { ch with script := ch.script.map fun sc =>
      { sc with current := sc.current.map fun st => { st with progress := .released b } } }

theorem releasedChan_releasedChan (b : Bool) (ch : Channel) : releasedChan b (releasedChan b ch) = releasedChan b ch := by
  simp only [releasedChan, Option.map_map, Function.comp_def]

theorem markReleased_eq (b : Bool) (s : State) (c : ChanId) :
    markReleased b s c = s.setChan c (releasedChan b (s.chan c)) := rfl

theorem state_chans_ext {s : State} {v w : Vector Channel 4} (h : ∀ c : ChanId, v[c] = w[c]) :
    { s with chans := v } = { s with chans := w } := by
  have : v = w := Vector.ext fun i hi => h ⟨i, hi⟩
  rw [this]

/-- The channels released, each marked once or more. -/
theorem foldl_markReleased (b : Bool) (l : List ChanId) (s : State) : l.foldl (markReleased b) s =
    { s with chans := Vector.ofFn fun c : ChanId => if c ∈ l then releasedChan b (s.chan c) else s.chan c } := by
  induction l generalizing s with
  | nil => exact state_chans_ext (s := s) fun c => by simp [State.chan]
  | cons d l ih =>
    rw [List.foldl_cons, ih, markReleased_eq]
    refine state_chans_ext (s := s) fun c => ?_
    by_cases hc : c = d
    · subst hc
      simp [releasedChan_releasedChan]
    · simp [hc]

theorem examine_eq (s : State) (k : CounterId) :
    examine s k = { s with
      sync := s.sync.set k { value := (syncWalk (s.counter k).value false (s.counter k).waiters).1,
                             waiters := (syncWalk (s.counter k).value false (s.counter k).waiters).2.1 },
      chans := Vector.ofFn fun c : ChanId =>
        if c ∈ (syncWalk (s.counter k).value false (s.counter k).waiters).2.2 then releasedChan false (s.chan c)
        else s.chan c } := by
  unfold examine
  dsimp only
  rw [foldl_markReleased]
  rfl

theorem syncWalk_sublist (v : Nat) (held : Bool) (ws : List SyncWaiter) : (syncWalk v held ws).2.1.Sublist ws := by
  induction ws generalizing v held with
  | nil => exact List.Sublist.refl _
  | cons w ws ih =>
    simp only [syncWalk]
    split
    · split
      · exact (ih _ _).cons _
      · exact (ih _ _).cons_cons _
    · split
      · exact (ih _ _).cons _
      · exact (ih _ _).cons_cons _

theorem syncWalk_length (v : Nat) (held : Bool) (ws : List SyncWaiter) :
    (syncWalk v held ws).2.1.length + (syncWalk v held ws).2.2.length = ws.length := by
  induction ws generalizing v held with
  | nil => rfl
  | cons w ws ih =>
    simp only [syncWalk]
    split
    · split
      · rw [List.length_cons, List.length_cons, ← Nat.add_assoc, ih]
      · rw [List.length_cons, List.length_cons, Nat.add_right_comm, ih]
    · split
      · rw [List.length_cons, List.length_cons, ← Nat.add_assoc, ih]
      · rw [List.length_cons, List.length_cons, Nat.add_right_comm, ih]

/-- What the consumers of a list would take. -/
def consumed (ws : List SyncWaiter) : Nat := (ws.map fun w => if w.consume then w.threshold else 0).sum

theorem consumed_cons (w : SyncWaiter) (ws : List SyncWaiter) :
    consumed (w :: ws) = (if w.consume then w.threshold else 0) + consumed ws := by simp [consumed]

/-- The value is lowered by the thresholds of the consumers released. -/
theorem syncWalk_value (v : Nat) (held : Bool) (ws : List SyncWaiter) :
    (syncWalk v held ws).1 + consumed ws = v + consumed (syncWalk v held ws).2.1 := by
  induction ws generalizing v held with
  | nil => rfl
  | cons w ws ih =>
    simp only [syncWalk]
    split
    · rename_i hw
      split
      · rename_i hsat
        have hle : w.threshold ≤ v := by
          simp only [Bool.and_eq_true, decide_eq_true_eq] at hsat
          exact hsat.2
        rw [consumed_cons, if_pos hw, Nat.add_left_comm, ih, ← Nat.add_assoc, Nat.add_sub_cancel' hle]
      · rw [consumed_cons, consumed_cons, if_pos hw, Nat.add_left_comm, ih, Nat.add_left_comm]
    · rename_i hw
      split
      · rw [consumed_cons, if_neg hw, Nat.zero_add, ih]
      · rw [consumed_cons, consumed_cons, if_neg hw, Nat.zero_add, Nat.zero_add, ih]

/-- The first consumer that stays is unsatisfied. -/
theorem syncWalk_unsatisfied (v : Nat) (ws : List SyncWaiter) (w : SyncWaiter)
    (h : (syncWalk v false ws).2.1.find? (fun w => w.consume) = some w) : (syncWalk v false ws).1 < w.threshold := by
  induction ws generalizing v with
  | nil => cases h
  | cons x xs ih =>
    simp only [syncWalk] at h ⊢
    split at h
    · rename_i hx
      rw [if_pos hx]
      split at h
      · rename_i hsat
        rw [if_pos hsat]
        exact ih _ h
      · rename_i hsat
        rw [if_neg hsat]
        rw [List.find?_cons_of_pos hx] at h
        cases h
        have := syncWalk_value_le v true xs
        simp only [Bool.not_false, Bool.true_and, decide_eq_true_eq, not_le] at hsat
        omega
    · rename_i hx
      rw [if_neg hx]
      split at h
      · rename_i hsat
        rw [if_pos hsat]
        exact ih _ h
      · rename_i hsat
        rw [if_neg hsat]
        rw [List.find?_cons_of_neg hx] at h
        exact ih _ h

/-- Settles O40, by induction on the list. -/
theorem examinationLaw : Obligations.ExaminationLaw := by
  refine ⟨fun v => rfl, fun v ahead w => ?_, examine_eq, fun v ws => ?_⟩
  · have hiff : walkReleases v false ahead w ↔ w.threshold ≤ (syncWalk v false ahead).1 ∧
        (w.consume = true → ∀ x ∈ (syncWalk v false ahead).2.1, x.consume = false) := by simp [walkReleases]
    exact ⟨fun h => syncWalk_released (hiff.mpr h), fun h => syncWalk_stays (mt hiff.mp h)⟩
  · exact ⟨syncWalk_sublist v false ws, syncWalk_length v false ws, syncWalk_value v false ws, syncWalk_unsatisfied v ws⟩

end Sys2Proof.Machine
end

section
/-! PROOF. Waiter lists as a channel leaves them (R158, R160), the end of a script (R13), and the completion record (R14). -/

namespace Sys2Proof.Machine

open Sys2Proof.Safety

/-! ## What leaving a list can do -/

/-- Only channels, counters and lines change, and no list gains an entry. -/
structure ListWork (s t : State) : Prop where
  frame : ∃ ch sy at', t = { s with chans := ch, sync := sy, attn := at' }
  counters : ∀ k, (t.counter k).waiters.Sublist (s.counter k).waiters
  lines : ∀ n, (t.line n).waiters.Sublist (s.line n).waiters

theorem ListWork.refl (s : State) : ListWork s s := ⟨⟨_, _, _, rfl⟩, fun _ => .refl _, fun _ => .refl _⟩

theorem ListWork.trans {s t u : State} (h : ListWork s t) (g : ListWork t u) : ListWork s u where
  frame := by
    obtain ⟨_, _, _, e⟩ := h.frame
    obtain ⟨_, _, _, e'⟩ := g.frame
    exact ⟨_, _, _, by rw [e', e]⟩
  counters := fun k => (g.counters k).trans (h.counters k)
  lines := fun n => (g.lines n).trans (h.lines n)

theorem ListWork.foldl {α : Type} (f : State → α → State) (h : ∀ s a, ListWork s (f s a)) (l : List α) (s : State) :
    ListWork s (l.foldl f s) := by
  induction l generalizing s with
  | nil => exact ListWork.refl s
  | cons a l ih => exact (h s a).trans (ih (f s a))

theorem ListWork.arb {s t : State} (h : ListWork s t) : t.arb = s.arb := by obtain ⟨_, _, _, e⟩ := h.frame; rw [e]

theorem ListWork.own {s t : State} (h : ListWork s t) : t.own = s.own := by obtain ⟨_, _, _, e⟩ := h.frame; rw [e]

/-- A counter whose list is cut. -/
theorem setCounter_listWork (s : State) (k : CounterId) (x : SyncCounter) (h : x.waiters.Sublist (s.counter k).waiters) :
    ListWork s (s.setCounter k x) where
  frame := ⟨_, _, _, rfl⟩
  counters := fun j => by
    by_cases e : j = k
    · subst e; simpa using h
    · simp [e]
  lines := fun _ => .refl _

theorem setLine_listWork (s : State) (n : LineId) (x : AttnLine) (h : x.waiters.Sublist (s.line n).waiters) :
    ListWork s (s.setLine n x) where
  frame := ⟨_, _, _, rfl⟩
  counters := fun _ => .refl _
  lines := fun m => by
    by_cases e : m = n
    · subst e; simpa using h
    · simp [e]

theorem examine_listWork (s : State) (k : CounterId) : ListWork s (examine s k) := by
  have h := setCounter_listWork s k
    { value := (syncWalk (s.counter k).value false (s.counter k).waiters).1,
      waiters := (syncWalk (s.counter k).value false (s.counter k).waiters).2.1 } (syncWalk_sublist ..)
  rw [examine_eq]
  exact ⟨⟨_, _, _, rfl⟩, h.counters, h.lines⟩

theorem leaveCounter_listWork (c : ChanId) (s : State) (k : CounterId) : ListWork s (leaveCounter c s k) := by
  unfold leaveCounter
  split
  · exact ListWork.refl s
  · have h := setCounter_listWork s k
      { s.counter k with waiters := (s.counter k).waiters.filter fun x => x.chan != c } List.filter_sublist
    dsimp only
    split
    · exact h.trans (examine_listWork _ k)
    · exact h

theorem leaveLine_listWork (c : ChanId) (s : State) (n : LineId) : ListWork s (leaveLine c s n) :=
  setLine_listWork s n _ List.filter_sublist

theorem leaveSync_listWork (s : State) (c : ChanId) : ListWork s (leaveSync s c) :=
  ListWork.foldl _ (leaveCounter_listWork c) _ s

theorem leaveAttn_listWork (s : State) (c : ChanId) : ListWork s (leaveAttn s c) :=
  ListWork.foldl _ (leaveLine_listWork c) _ s

theorem leaveLists_listWork (s : State) (c : ChanId) : ListWork s (leaveLists s c) :=
  (leaveSync_listWork s c).trans (leaveAttn_listWork _ c)

/-! ## The channel that leaves -/

theorem syncWalk_released_mem {v : Nat} {held : Bool} {ws : List SyncWaiter} {c : ChanId}
    (h : c ∈ (syncWalk v held ws).2.2) : ∃ w ∈ ws, w.chan = c := by
  induction ws generalizing v held with
  | nil => cases h
  | cons w ws ih =>
    have later {v : Nat} {held : Bool} (h : c ∈ (syncWalk v held ws).2.2) : ∃ x ∈ w :: ws, x.chan = c := by
      obtain ⟨x, hx, e⟩ := ih h
      exact ⟨x, List.mem_cons_of_mem _ hx, e⟩
    have here {l : List ChanId} (h : c ∈ w.chan :: l) (hl : c ∈ l → ∃ x ∈ w :: ws, x.chan = c) : ∃ x ∈ w :: ws, x.chan = c := by
      rcases List.mem_cons.mp h with e | h
      · exact ⟨w, List.mem_cons_self .., e.symm⟩
      · exact hl h
    simp only [syncWalk] at h
    split at h
    · split at h
      · exact here h later
      · exact later h
    · split at h
      · exact here h later
      · exact later h

/-- An examination leaves a channel that does not stand on the list. -/
theorem examine_chan {s : State} {k : CounterId} {c : ChanId} (h : ∀ w ∈ (s.counter k).waiters, w.chan ≠ c) :
    (examine s k).chan c = s.chan c := by
  have hn : c ∉ (syncWalk (s.counter k).value false (s.counter k).waiters).2.2 := fun hc => by
    obtain ⟨w, hw, e⟩ := syncWalk_released_mem hc
    exact h w hw e
  rw [examine_eq]
  simp [State.chan, hn]

theorem filter_chan_ne {α : Type} (f : α → ChanId) (l : List α) (c : ChanId) :
    ∀ w ∈ l.filter (fun x => f x != c), f w ≠ c := by
  intro w hw
  simpa using (List.mem_filter.mp hw).2

@[simp] theorem leaveCounter_chan (c : ChanId) (s : State) (k : CounterId) : (leaveCounter c s k).chan c = s.chan c := by
  unfold leaveCounter
  split
  · rfl
  · dsimp only
    split
    · rw [examine_chan]
      · rfl
      · rw [counter_setCounter_self]
        exact filter_chan_ne (fun w : SyncWaiter => w.chan) _ c
    · rfl

theorem leaveCounter_off (c : ChanId) (s : State) (k : CounterId) :
    ∀ w ∈ ((leaveCounter c s k).counter k).waiters, w.chan ≠ c := by
  have hfilter := filter_chan_ne (fun w : SyncWaiter => w.chan) (s.counter k).waiters c
  unfold leaveCounter
  split
  · rename_i h
    simpa using h
  · dsimp only
    split
    · intro w hw
      have := ((examine_listWork _ k).counters k).subset hw
      rw [counter_setCounter_self] at this
      exact hfilter w this
    · rw [counter_setCounter_self]
      exact hfilter

theorem leaveCounters_chan (c : ChanId) (l : List CounterId) (s : State) : (l.foldl (leaveCounter c) s).chan c = s.chan c := by
  induction l generalizing s with
  | nil => rfl
  | cons k l ih => rw [List.foldl_cons, ih, leaveCounter_chan]

theorem leaveCounters_off (c : ChanId) (l : List CounterId) (s : State) (k : CounterId) (hk : k ∈ l) :
    ∀ w ∈ ((l.foldl (leaveCounter c) s).counter k).waiters, w.chan ≠ c := by
  induction l generalizing s with
  | nil => cases hk
  | cons j l ih =>
    rcases List.mem_cons.mp hk with rfl | hk
    · exact fun w hw => leaveCounter_off c s k w
        (((ListWork.foldl _ (leaveCounter_listWork c) l (leaveCounter c s k)).counters k).subset hw)
    · exact ih _ hk

@[simp] theorem leaveLine_chan (c d : ChanId) (s : State) (n : LineId) : (leaveLine c s n).chan d = s.chan d := rfl

theorem leaveLines_chan (c d : ChanId) (l : List LineId) (s : State) : (l.foldl (leaveLine c) s).chan d = s.chan d := by
  induction l generalizing s with
  | nil => rfl
  | cons k l ih => rw [List.foldl_cons, ih, leaveLine_chan]

theorem leaveLines_off (c : ChanId) (l : List LineId) (s : State) (n : LineId) (hn : n ∈ l) :
    ∀ w ∈ ((l.foldl (leaveLine c) s).line n).waiters, w.chan ≠ c := by
  induction l generalizing s with
  | nil => cases hn
  | cons j l ih =>
    rcases List.mem_cons.mp hn with rfl | hn
    · intro w hw
      have := ((ListWork.foldl _ (leaveLine_listWork c) l (leaveLine c s n)).lines n).subset hw
      rw [leaveLine, line_setLine_self] at this
      exact filter_chan_ne (fun w : AttnWaiter => w.chan) _ c w this
    · exact ih _ hn

theorem mem_allEight (k : Fin 8) : k ∈ allEight := by revert k; decide

@[simp] theorem leaveLists_chan (s : State) (c : ChanId) : (leaveLists s c).chan c = s.chan c := by
  unfold leaveLists leaveAttn leaveSync
  rw [leaveLines_chan, leaveCounters_chan]

/-- A channel that leaves its lists stands on none. -/
theorem leaveLists_off (s : State) (c : ChanId) : OnNoList (leaveLists s c) c :=
  ⟨fun k w hw => leaveCounters_off c allEight s k (mem_allEight k) w (((leaveAttn_listWork (leaveSync s c) c).counters k).subset hw),
    fun n => leaveLines_off c allEight (leaveSync s c) n (mem_allEight n)⟩

theorem onNoList_setChan {s : State} {c d : ChanId} (x : Channel) (h : OnNoList s d) : OnNoList (s.setChan c x) d :=
  ⟨fun k => h.1 k, fun n => h.2 n⟩

/-! ## The one list a channel stands on (R20, R25, R160) -/

/-- Counters on whose list the channel does not stand are passed over. -/
theorem leaveCounters_one {c : ChanId} {k : CounterId} {s : State}
    (h : ∀ j, j ≠ k → ∀ w ∈ (s.counter j).waiters, w.chan ≠ c) (l : List CounterId) :
    l.foldl (leaveCounter c) s = if k ∈ l then leaveCounter c s k else s := by
  induction l with
  | nil => rfl
  | cons j l ih =>
    rw [List.foldl_cons]
    by_cases e : j = k
    · subst e
      rw [if_pos (List.mem_cons_self ..)]
      have hoff (i : CounterId) : ∀ w ∈ ((leaveCounter c s j).counter i).waiters, w.chan ≠ c := by
        by_cases e : i = j
        · subst e; exact leaveCounter_off c s i
        · exact fun w hw => h i e w (((leaveCounter_listWork c s j).counters i).subset hw)
      have rest (l : List CounterId) : l.foldl (leaveCounter c) (leaveCounter c s j) = leaveCounter c s j := by
        induction l with
        | nil => rfl
        | cons i l ih => rw [List.foldl_cons, leaveCounter_self (hoff i), ih]
      exact rest l
    · rw [leaveCounter_self (h j e), ih]
      simp [Ne.symm e]

theorem leaveLines_one {c : ChanId} {n : LineId} {s : State}
    (h : ∀ m, m ≠ n → ∀ w ∈ (s.line m).waiters, w.chan ≠ c) (l : List LineId) :
    l.foldl (leaveLine c) s = if n ∈ l then leaveLine c s n else s := by
  induction l with
  | nil => rfl
  | cons j l ih =>
    rw [List.foldl_cons]
    by_cases e : j = n
    · subst e
      rw [if_pos (List.mem_cons_self ..)]
      have hoff (m : LineId) : ∀ w ∈ ((leaveLine c s j).line m).waiters, w.chan ≠ c := by
        by_cases e : m = j
        · subst e; simpa using leaveLines_off c [m] s m (List.mem_singleton_self m)
        · exact fun w hw => h m e w (((leaveLine_listWork c s j).lines m).subset hw)
      have rest (l : List LineId) : l.foldl (leaveLine c) (leaveLine c s j) = leaveLine c s j := by
        induction l with
        | nil => rfl
        | cons i l ih => rw [List.foldl_cons, leaveLine_self (hoff i), ih]
      exact rest l
    · rw [leaveLine_self (h j e), ih]
      simp [Ne.symm e]

theorem leaveAttn_self {s : State} {c : ChanId} (h : ∀ n, ∀ w ∈ (s.line n).waiters, w.chan ≠ c) : leaveAttn s c = s := by
  rw [leaveAttn, leaveLines_one (n := 0) (fun m _ => h m), if_pos (mem_allEight 0), leaveLine_self (h 0)]

theorem leaveSync_self {s : State} {c : ChanId} (h : ∀ k, ∀ w ∈ (s.counter k).waiters, w.chan ≠ c) : leaveSync s c = s := by
  rw [leaveSync, leaveCounters_one (k := 0) (fun m _ => h m), if_pos (mem_allEight 0), leaveCounter_self (h 0)]

/-- What leaving the lists gives, where the channel stands on one at most. -/
theorem leaveLists_of_cutOff {s u : State} {c : ChanId} (h : CutOff s c u) : leaveLists s c = u := by
  rcases h with ⟨hn, rfl⟩ | ⟨k, w, hlines, hcounters, hfind, rfl⟩ | ⟨n, hcounters, hlines, rfl⟩
  · exact leaveLists_self hn
  · have hsync : leaveSync s c = leaveCounter c s k := by
      rw [leaveSync, leaveCounters_one hcounters, if_pos (mem_allEight k)]
    rw [leaveLists, hsync, leaveAttn_self fun n x hx => hlines n x (((leaveCounter_listWork c s k).lines n).subset hx)]
    unfold leaveCounter
    rw [hfind]
  · rw [leaveLists, leaveSync_self hcounters, leaveAttn, leaveLines_one hlines, if_pos (mem_allEight n)]
    rfl

/-! ## The end of a script (R13) -/

theorem releaseLock_eq (s : State) (c : ChanId) : releaseLock s c =
    if lockHeldBy s c then { s with arb := { s.arb with lock := none }, own := { s.own with lockTimer := none } } else s := rfl

@[simp] theorem releaseLock_chan (s : State) (c d : ChanId) : (releaseLock s c).chan d = s.chan d := by
  unfold releaseLock; split <;> rfl

theorem releaseLock_lockHeldBy (s : State) (c : ChanId) : lockHeldBy (releaseLock s c) c = false := by
  unfold releaseLock
  split
  · rfl
  · rename_i h; simpa using h

@[simp] theorem lockHeldBy_setChan (s : State) (c d : ChanId) (x : Channel) :
    lockHeldBy (s.setChan c x) d = lockHeldBy s d := rfl

theorem lockHeldBy_congr {s t : State} (c : ChanId) (h : t.arb = s.arb) : lockHeldBy t c = lockHeldBy s c := by
  unfold lockHeldBy; rw [h]

theorem presentedOf_congr {s t : State} (c : ChanId) (h : t.arb = s.arb) : t.presentedOf c = s.presentedOf c := by
  unfold State.presentedOf; rw [h]

theorem withdraw_lockHeldBy (s : State) (c d : ChanId) : lockHeldBy (withdraw s c) d = lockHeldBy s d := rfl

/-- The script as its end is fixed. -/
def Script.ended (sc : Script) (e : Ending) : Script :=
  { sc with current := none, window := [], links := [], ending := some e }

/-- The write of a script's completion. -/
def endWrite (sc : Script) (r : RingPair) (e : Ending) : Data :=
  .completion { addr := hostAdd r.cqBase (16 * r.cqTail),
                bytes := completionBytes sc.tag e.status sc.warnings r.phase r.sqHead sc.executed e.ordinal e.detail }

/-- The channel as its script ends: the completion write starts where no data transfer is in flight (R13). -/
def endedChan (ch : Channel) (sc : Script) (r : RingPair) (e : Ending) : Channel :=
  { ch with
    timer := none, script := some (sc.ended e), fetch := ch.fetch.map fun f => { f with discard := true },
    data := if ch.data = none then some (endWrite sc r e) else ch.data,
    wait := if ch.data = none ∧ (ch.st = .running ∨ ch.st = .pausing ∨ ch.st = .aborting) then .hostWrite else ch.wait }

/-- A channel with an end fixed starts its completion write where no data transfer is in flight. -/
theorem startCompletion_eq {s : State} {c : ChanId} {sc : Script} {r : RingPair} {e : Ending}
    (hs : (s.chan c).script = some sc) (hr : (s.chan c).rings = some r) (he : sc.ending = some e) :
    startCompletion s c = s.setChan c { s.chan c with
      data := if (s.chan c).data = none then some (endWrite sc r e) else (s.chan c).data,
      wait := if (s.chan c).data = none ∧ ((s.chan c).st = .running ∨ (s.chan c).st = .pausing ∨ (s.chan c).st = .aborting)
        then .hostWrite else (s.chan c).wait } := by
  unfold startCompletion
  dsimp only
  cases hd : (s.chan c).data with
  | none => simp only [hs, hr, he, true_and, if_true]; rfl
  | some d =>
    have hsame : { s.chan c with data := some d } = s.chan c := by rw [← hd]
    simp only [reduceCtorEq, false_and, if_false, hsame, setChan_chan]
    split
    · rename_i h; cases h
    · rfl

theorem endScript_eq {s : State} {c : ChanId} {sc : Script} {r : RingPair} (st : Status) (o : Nat) (d : Detail)
    (hs : (s.chan c).script = some sc) (hr : (s.chan c).rings = some r) :
    endScript s c st o d = (leaveLists (withdraw (releaseLock s c) c) c).setChan c
      (endedChan (s.chan c) sc r { status := st, ordinal := o, detail := d }) := by
  have hc : (leaveLists (withdraw (releaseLock s c) c) c).chan c = s.chan c := by simp [withdraw]
  unfold endScript
  dsimp only
  rw [startCompletion_eq (sc := sc.ended { status := st, ordinal := o, detail := d }) (r := r)
    (e := { status := st, ordinal := o, detail := d }) (by simp [hc, discardFetch, hs]; rfl) (by simp [hc, discardFetch, hr]) rfl]
  simp [hc, discardFetch, hs, endedChan, Script.ended, endWrite]

/-! ## The completion record (R14) -/

theorem warnings_byte (w : Warnings) (phase : Bool) : BitVec.ofNat 8 (w.bits + 128 * phaseBit phase) =
    (if w.shadowFull then 1 else 0) ||| (if w.softTimeout then 2 else 0) ||| (if w.attnSaturated then 4 else 0) |||
      (if phase then 0x80 else 0) := by
  obtain ⟨a, b, c⟩ := w
  revert a b c phase
  decide

theorem completionBytes_eq (tag : BitVec 16) (st : Status) (w : Warnings) (phase : Bool) (head executed ordinal : Nat)
    (d : Detail) : completionBytes tag st w phase head executed ordinal d =
      [tag.extractLsb' 0 8, tag.extractLsb' 8 8, st.code,
       (if w.shadowFull then 1 else 0) ||| (if w.softTimeout then 2 else 0) ||| (if w.attnSaturated then 4 else 0) |||
         (if phase then 0x80 else 0),
       BitVec.ofNat 8 head, BitVec.ofNat 8 (head / 256), BitVec.ofNat 8 (min executed 16777215),
       BitVec.ofNat 8 (min executed 16777215 / 256), BitVec.ofNat 8 (min executed 16777215 / 65536),
       BitVec.ofNat 8 (min ordinal 16777215), BitVec.ofNat 8 (min ordinal 16777215 / 256),
       BitVec.ofNat 8 (min ordinal 16777215 / 65536),
       d.extractLsb' 0 8, d.extractLsb' 8 8, d.extractLsb' 16 8, d.extractLsb' 24 8] := by
  unfold completionBytes
  rw [leBytes_word2, leBytes_word4, leBytes_one, leBytes_two, leBytes_three, leBytes_three, warnings_byte]
  rfl

/-- Settles O5, by the equation of a script's end. -/
theorem scriptEnds : Obligations.ScriptEnds := by
  refine ⟨completionBytes_eq, ?_⟩
  intro s c st o d sc r hs hr
  have work := leaveLists_listWork (withdraw (releaseLock s c) c) c
  dsimp only
  rw [endScript_eq st o d hs hr, chan_setChan_self]
  refine ⟨rfl, rfl, rfl, ?_, ?_, onNoList_setChan _ (leaveLists_off _ c), rfl, fun hd => if_pos hd, fun hd => if_neg hd, fun u hu => ?_⟩
  · rw [lockHeldBy_setChan, lockHeldBy_congr c work.arb, withdraw_lockHeldBy, releaseLock_lockHeldBy]
  · rw [presentedOf_setChan, presentedOf_congr c work.arb, withdraw, presentedOf_setPresented_self]
  · have hcut : CutOff (withdraw (releaseLock s c) c) c u := hu
    rw [leaveLists_of_cutOff hcut]
    rfl

end Sys2Proof.Machine
end

section
/-! PROOF. The service of the port comes to rest (R82, R84), and the claims of a yield point in their order. -/

namespace Sys2Proof.Machine

open Sys2Proof.Safety

/-! ## What the set and the waiting command can lose -/

/-- No request joins the presented set, and the waiting command stays. -/
structure Fewer (s t : State) : Prop where
  presented : ∀ d, t.presentedOf d ≠ none → s.presentedOf d ≠ none
  cmd : t.own.cmd = s.own.cmd

theorem Fewer.refl (s : State) : Fewer s s := ⟨fun _ => id, rfl⟩

theorem Fewer.trans {s t u : State} (h : Fewer s t) (g : Fewer t u) : Fewer s u :=
  ⟨fun d e => h.presented d (g.presented d e), g.cmd.trans h.cmd⟩

/-- A change of the Ownership Controller that keeps the waiting command. -/
theorem own_fewer (s : State) (o : Ownership) (h : o.cmd = s.own.cmd) : Fewer s { s with own := o } := ⟨fun _ => id, h⟩

theorem startCompletion_setChan (s : State) (c : ChanId) : ∃ x, startCompletion s c = s.setChan c x := by
  unfold startCompletion
  dsimp only
  split
  · split
    · exact ⟨_, rfl⟩
    · exact ⟨_, (setChan_chan s c).symm⟩
  · exact ⟨_, (setChan_chan s c).symm⟩

/-- The end of a script changes, besides its channel, the lock, the set and the lists (R13). -/
theorem endScript_setChan (s : State) (c : ChanId) (st : Status) (o : Nat) (d : Detail) :
    ∃ x, endScript s c st o d = (leaveLists (withdraw (releaseLock s c) c) c).setChan c x := by
  unfold endScript
  dsimp only
  obtain ⟨x, hx⟩ := startCompletion_setChan
    (((leaveLists (withdraw (releaseLock s c) c) c).modChan c fun ch => { discardFetch ch with timer := none }).modScript c
      fun sc => { sc with current := none, window := [], links := [], ending := some { status := st, ordinal := o, detail := d } }) c
  exact ⟨x, by rw [hx]; simp⟩

theorem endScript_arb (s : State) (c : ChanId) (st : Status) (o : Nat) (d : Detail) :
    (endScript s c st o d).arb = (withdraw (releaseLock s c) c).arb := by
  obtain ⟨x, hx⟩ := endScript_setChan s c st o d
  rw [hx, setChan_arb, (leaveLists_listWork _ c).arb]

theorem endScript_own (s : State) (c : ChanId) (st : Status) (o : Nat) (d : Detail) :
    (endScript s c st o d).own = (releaseLock s c).own := by
  obtain ⟨x, hx⟩ := endScript_setChan s c st o d
  rw [hx, setChan_own, (leaveLists_listWork _ c).own]
  rfl

theorem withdraw_presented_iff (s : State) (c d : ChanId) :
    (withdraw s c).presentedOf d ≠ none ↔ d ≠ c ∧ s.presentedOf d ≠ none := by
  by_cases e : d = c
  · subst e; simp [withdraw]
  · simp [withdraw, e]

theorem withdraw_fewer (s : State) (c : ChanId) : Fewer s (withdraw s c) :=
  ⟨fun d h => ((withdraw_presented_iff s c d).mp h).2, rfl⟩

theorem releaseLock_fewer (s : State) (c : ChanId) : Fewer s (releaseLock s c) := by
  unfold releaseLock; split
  · exact ⟨fun _ => id, rfl⟩
  · exact Fewer.refl s

theorem endScript_fewer (s : State) (c : ChanId) (st : Status) (o : Nat) (d : Detail) : Fewer s (endScript s c st o d) := by
  have h := (releaseLock_fewer s c).trans (withdraw_fewer _ c)
  exact ⟨fun e he => h.presented e (by rwa [presentedOf_congr e (endScript_arb s c st o d)] at he),
    by rw [endScript_own]; exact h.cmd⟩

theorem failAccess_fewer (s : State) (c : ChanId) (st : Status) : Fewer s (failAccess s c st) := by
  unfold failAccess
  split
  · exact endScript_fewer ..
  · exact Fewer.refl s

theorem isolateChan_fewer (s : State) (c : ChanId) : Fewer s (isolateChan s c) := by
  unfold isolateChan
  split
  · exact (withdraw_fewer s c).trans (failAccess_fewer ..)
  · exact Fewer.refl s

theorem Fewer.foldl {α : Type} (f : State → α → State) (h : ∀ s a, Fewer s (f s a)) (l : List α) (s : State) :
    Fewer s (l.foldl f s) := by
  induction l generalizing s with
  | nil => exact Fewer.refl s
  | cons a l ih => exact (h s a).trans (ih (f s a))

theorem leaveMode_fewer (s : State) : Fewer s (leaveMode s) := by
  unfold leaveMode
  refine Fewer.trans ?_ (Fewer.foldl _ isolateChan_fewer _ _)
  exact own_fewer s _ rfl

theorem askBus_fewer (s : State) : Fewer s (askBus s) := by
  unfold askBus
  split
  · exact own_fewer s _ rfl
  · exact Fewer.refl s

theorem enterSettling_fewer (s : State) : Fewer s (enterSettling s) := by
  unfold enterSettling
  split
  · exact own_fewer s _ rfl
  · exact own_fewer s _ rfl

theorem enterMode_fewer (s : State) (m : PortMode) : Fewer s (enterMode s m) := by
  unfold enterMode
  dsimp only
  refine (own_fewer s { s.own with mode := m, passage := none, turnTimer := none } rfl).trans ?_
  split
  · exact Fewer.refl _
  · split
    · exact own_fewer _ _ rfl
    · exact enterSettling_fewer _
  · refine Fewer.trans ?_ (askBus_fewer _)
    exact own_fewer _ _ rfl

theorem adminDone_fewer (s : State) (on : AdminWait) (st : AdminStatus) (d : Detail) : Fewer s (adminDone s on st d) := by
  obtain ⟨a, -, e⟩ := adminDone_frame s on st d
  rw [e]; exact ⟨fun _ => id, rfl⟩

theorem endPassage_fewer (s : State) (m : PortMode) : Fewer s (endPassage s m) := by
  unfold endPassage
  dsimp only
  split
  · refine (enterMode_fewer s m).trans (Fewer.trans ?_ (adminDone_fewer ..))
    exact own_fewer _ _ rfl
  · exact enterMode_fewer s m

/-- A change of mode uses up the waiting command. -/
theorem changeMode_fewer (s : State) (m : PortMode) (p : PortParams) :
    Fewer { s with own := { s.own with params := p, cmd := none, changeTimer := none, passage := none } } (changeMode s m p) := by
  unfold changeMode
  dsimp only
  split
  · exact (enterMode_fewer _ m).trans (adminDone_fewer ..)
  · refine (leaveMode_fewer _).trans ?_
    split
    · exact adminDone_fewer ..
    · have k (t : State) : Fewer t { t with own := { t.own with
          passage := some m, answers := true, turnTimer := startTimer p.turnaround } } := own_fewer t _ rfl
      split
      · exact (k _).trans (endPassage_fewer _ m)
      · exact k _

/-! ## The number of claims -/

/-- The requests presented and the waiting command. -/
def claims (s : State) : Nat :=
  (Finset.univ.filter fun c : ChanId => s.presentedOf c ≠ none).card + (if s.own.cmd = none then 0 else 1)

theorem claims_le (s : State) : claims s ≤ 5 := by
  have h : (Finset.univ.filter fun c : ChanId => s.presentedOf c ≠ none).card ≤ 4 :=
    (Finset.card_filter_le _ _).trans_eq (Finset.card_fin 4)
  unfold claims
  split <;> omega

/-- One request less. -/
theorem claims_lt_of_presented {s t : State} {c : ChanId} (h : Fewer s t) (hs : s.presentedOf c ≠ none)
    (ht : t.presentedOf c = none) : claims t < claims s := by
  have hcard : (Finset.univ.filter fun c : ChanId => t.presentedOf c ≠ none).card <
      (Finset.univ.filter fun c : ChanId => s.presentedOf c ≠ none).card := by
    refine Finset.card_lt_card ⟨fun d hd => ?_, fun hsub => ?_⟩
    · simp only [Finset.mem_filter, Finset.mem_univ, true_and] at hd ⊢
      exact h.presented d hd
    · have := hsub (by simpa using hs : c ∈ Finset.univ.filter fun c : ChanId => s.presentedOf c ≠ none)
      simp only [Finset.mem_filter, Finset.mem_univ, true_and] at this
      exact this ht
  unfold claims
  rw [h.cmd]
  omega

/-- The waiting command used up. -/
theorem claims_lt_of_cmd {s t : State} {o : Ownership} (ho : o.cmd = none) (h : Fewer { s with own := o } t)
    (hs : s.own.cmd ≠ none) : claims t < claims s := by
  have hcard : (Finset.univ.filter fun c : ChanId => t.presentedOf c ≠ none).card ≤
      (Finset.univ.filter fun c : ChanId => s.presentedOf c ≠ none).card := by
    refine Finset.card_le_card fun d hd => ?_
    simp only [Finset.mem_filter, Finset.mem_univ, true_and] at hd ⊢
    exact h.presented d hd
  unfold claims
  rw [if_pos (h.cmd.trans ho), if_neg hs]
  omega

/-! ## Each claim served -/

theorem portOpen_of_state {s : State} (h : s.own.state ≠ .holding) : portOpen s = false := by
  simp [portOpen, h]

theorem portOpen_of_inflight {s : State} (h : s.arb.inflight.isSome = true) : portOpen s = false := by
  obtain ⟨f, hf⟩ := Option.isSome_iff_exists.mp h
  simp [portOpen, hf]

theorem beginAccess_inflight (s : State) (c : ChanId) (r : Request) (i : RegionId) (g : Region) (v : Option Value) :
    (beginAccess s c r i g v).arb.inflight.isSome = true := by
  unfold beginAccess
  rw [(setWait_work ..).inflight, (markIssued_work ..).inflight]
  rfl

theorem issue_claims {s : State} {c : ChanId} (h : s.presentedOf c ≠ none) :
    portOpen (issue s c) = false ∨ claims (issue s c) < claims s := by
  unfold issue
  split
  · rename_i hn; exact absurd hn h
  · dsimp only
    split
    · have k : Fewer s { withdraw s c with arb := { (withdraw s c).arb with lastServed := c } } :=
        ⟨(withdraw_fewer s c).presented, rfl⟩
      have hgone : State.presentedOf { withdraw s c with arb := { (withdraw s c).arb with lastServed := c } } c = none :=
        presentedOf_setPresented_self s c none
      have f := failAccess_fewer { withdraw s c with arb := { (withdraw s c).arb with lastServed := c } } c
      refine .inr (claims_lt_of_presented (k.trans (f _)) h ?_)
      by_contra hne
      exact (f _).presented c hne hgone
    · exact .inl (portOpen_of_inflight (beginAccess_inflight ..))

theorem giveUp_state (s : State) : (giveUp s).own.state = .released ∨ (giveUp s).own.state = .requesting := by
  unfold giveUp askBus
  split
  · exact .inr rfl
  · exact .inl rfl

theorem giveUp_closes (s : State) : portOpen (giveUp s) = false :=
  portOpen_of_state (by rcases giveUp_state s with h | h <;> simp [h])

/-- A claim served closes the port, or is a claim less (R82). -/
theorem serveOne_claims {s t : State} (h : serveOne s = some t) : portOpen t = false ∨ claims t < claims s := by
  have issued {c : ChanId} (hc : (s.presentedOf c).isSome = true) : portOpen (issue s c) = false ∨ claims (issue s c) < claims s :=
    issue_claims (by intro e; rw [e] at hc; cases hc)
  unfold serveOne at h
  split at h
  · cases h
  · split at h
    · split at h
      · rename_i hp
        cases h; exact issued hp
      · cases h
    · split at h
      · cases h; exact .inl (portOpen_of_state (by simp [grant]))
      · split at h
        · rename_i hcmd
          cases h; exact .inr (claims_lt_of_cmd rfl (changeMode_fewer ..) (by simp [hcmd]))
        · cases h; exact .inl (portOpen_of_state (by simp [startPulse]))
        · split at h
          · cases h; exact .inl (giveUp_closes s)
          · split at h
            · rename_i c hc
              cases h; exact issued (List.find?_some (p := fun c => (s.presentedOf c).isSome) hc)
            · split at h
              · cases h; exact .inl (giveUp_closes s)
              · cases h

theorem serveRounds_of_none {s : State} (h : serveOne s = none) (n : Nat) : serveRounds n s = s := by
  cases n with
  | zero => rfl
  | succ n => simp only [serveRounds, h]

theorem serveRounds_rest {n : Nat} {s : State} (h : claims s < n) : serveOne (serveRounds n s) = none := by
  induction n generalizing s with
  | zero => cases h
  | succ n ih =>
    cases hs : serveOne s with
    | none => rw [serveRounds_of_none hs, hs]
    | some t =>
      simp only [serveRounds, hs]
      rcases serveOne_claims hs with hc | hc
      · rw [serveRounds_of_none (serveOne_closed hc), serveOne_closed hc]
      · exact ih (by omega)

/-- Settles O6: each claim served closes the port or is a claim less, and there are five at most. -/
theorem serviceReachesRest : Obligations.ServiceReachesRest := fun s =>
  serveRounds_rest (Nat.lt_of_le_of_lt (claims_le s) (by decide))

/-- Rounds beyond rest add nothing. -/
theorem serveRounds_enough {n m : Nat} {s : State} (hn : claims s < n) (hm : claims s < m) : serveRounds n s = serveRounds m s := by
  induction n generalizing m s with
  | zero => cases hn
  | succ n ih =>
    cases m with
    | zero => cases hm
    | succ m =>
      cases hs : serveOne s with
      | none => rw [serveRounds_of_none hs, serveRounds_of_none hs]
      | some t =>
        simp only [serveRounds, hs]
        rcases serveOne_claims hs with hc | hc
        · rw [serveRounds_of_none (serveOne_closed hc), serveRounds_of_none (serveOne_closed hc)]
        · exact ih (by omega) (by omega)

/-- Service goes on from the state the first claim leaves (R82, R84). -/
theorem serve_of_some {s t : State} (h : serveOne s = some t) : serve s = serve t := by
  have e : serve s = serveRounds 7 t := by simp only [serve, serveRounds, h]
  rw [e]
  exact serveRounds_enough (Nat.lt_of_le_of_lt (claims_le t) (by decide)) (Nat.lt_of_le_of_lt (claims_le t) (by decide))

/-- A claim that closes the port is the last one served. -/
theorem serve_closes {s t : State} (h : serveOne s = some t) (ht : portOpen t = false) : serve s = t :=
  serve_of_one h (serveOne_closed ht)

/-! ## The order of the claims (R82 to R84) -/

theorem startedStep_iff (ch : Channel) : startedStep ch = true ↔
    ch.st = .running ∧ ∃ sc st, ch.script = some sc ∧ sc.ending = none ∧ sc.current = some st ∧ st.progress = .fresh := by
  unfold startedStep
  cases hs : ch.script with
  | none => simp
  | some sc =>
    cases hc : sc.current with
    | none => simp [hc]
    | some st => simp [hc]

theorem mem_allChans (c : ChanId) : c ∈ allChans := by revert c; decide

theorem stepDue_iff (s : State) : stepDue s = true ↔ s.ready = true ∧
    ∃ c sc st, (s.chan c).st = .running ∧ InStep s c sc st ∧ st.progress = .fresh := by
  have hall : (allChans.any fun c => startedStep (s.chan c)) = true ↔ ∃ c : ChanId, startedStep (s.chan c) = true := by
    rw [List.any_eq_true]
    exact ⟨fun ⟨c, _, h⟩ => ⟨c, h⟩, fun ⟨c, h⟩ => ⟨c, mem_allChans c, h⟩⟩
  rw [stepDue, Bool.and_eq_true, hall]
  refine and_congr_right fun _ => exists_congr fun c => ?_
  rw [startedStep_iff]
  exact ⟨fun ⟨hst, sc, st, hs, he, hc, hp⟩ => ⟨sc, st, hst, ⟨hs, he, hc⟩, hp⟩,
    fun ⟨sc, st, hst, ⟨hs, he, hc⟩, hp⟩ => ⟨hst, sc, st, hs, he, hc, hp⟩⟩

theorem portOpen_true {s : State} (h1 : s.own.state = .holding) (h2 : s.arb.inflight = none) (h3 : s.own.brst = false) :
    portOpen s = true := by simp [portOpen, h1, h2, h3]

theorem noneP_iff (s : State) : s.noneP = true ↔ ∀ c, s.presentedOf c = none := by
  unfold State.noneP
  rw [List.all_eq_true]
  exact ⟨fun h c => by simpa using h c (mem_allChans c), fun h c _ => by simp [h c]⟩

/-- The bus given up is asked for again where a request is presented and GNT is low (R116, R118). -/
theorem giveUp_eq {s : State} (hm : s.own.mode = .guest) : giveUp s = { s with own := { s.own with
    state := if s.own.gnt = true ∨ ∀ c, s.presentedOf c = none then .released else .requesting,
    holdTimer := none, turnTimer := none, holdPassed := false } } := by
  have hn : State.noneP { s with own := { s.own with
      state := .released, holdTimer := none, turnTimer := none, holdPassed := false } } = s.noneP := rfl
  unfold giveUp askBus
  by_cases h : s.own.gnt = true ∨ ∀ c, s.presentedOf c = none
  · rw [if_neg, if_pos h]
    rintro ⟨-, -, hnone, hgnt⟩
    rcases h with h | h
    · exact absurd (h.symm.trans hgnt) (by simp)
    · rw [hn, (noneP_iff s).mpr h] at hnone; cases hnone
  · rw [not_or] at h
    obtain ⟨hgnt, hpres⟩ := h
    have hnone : s.noneP = false := by
      rw [← Bool.not_eq_true, noneP_iff]; exact hpres
    rw [if_pos ⟨hm, rfl, hn.trans hnone, by simpa using hgnt⟩, if_neg (not_or.mpr ⟨hgnt, hpres⟩)]

section
variable {s : State} (hy : YieldPoint s)
include hy

theorem serveOne_yield : serveOne s =
    if s.own.mode = .master ∧ s.own.req = true then some (grant s)
    else
      match s.own.cmd with
      | some (.setMode m p) => some (changeMode s m p)
      | some (.reset w) => some (startPulse s w)
      | none =>
        if s.own.mode = .guest ∧ s.own.holdPassed = true then some (giveUp s)
        else
          match nextServed s with
          | some c => some (issue s c)
          | none => if s.own.mode = .guest ∧ stepDue s = false then some (giveUp s) else none := by
  obtain ⟨h1, h2, h3, h4⟩ := hy
  unfold serveOne
  rw [portOpen_true h1 h2 h3, h4]
  rfl

theorem serve_grant (hm : s.own.mode = .master) (hr : s.own.req = true) : serve s = grant s :=
  serve_closes (by rw [serveOne_yield hy, if_pos ⟨hm, hr⟩]) (portOpen_of_state (by simp [grant]))

variable (hreq : ¬ (s.own.mode = .master ∧ s.own.req = true))
include hreq

theorem serve_changeMode {m : PortMode} {p : PortParams} (hc : s.own.cmd = some (.setMode m p)) :
    serve s = serve (changeMode s m p) :=
  serve_of_some (by rw [serveOne_yield hy, if_neg hreq, hc])

theorem serve_startPulse {w : Nat} (hc : s.own.cmd = some (.reset w)) : serve s = startPulse s w :=
  serve_closes (by rw [serveOne_yield hy, if_neg hreq, hc]) (portOpen_of_state (by simp [startPulse]))

variable (hc : s.own.cmd = none)
include hc

theorem serve_holdPassed (hm : s.own.mode = .guest) (hp : s.own.holdPassed = true) : serve s = giveUp s :=
  serve_closes (by rw [serveOne_yield hy, if_neg hreq, hc]; exact if_pos ⟨hm, hp⟩) (giveUp_closes s)

variable (hpass : ¬ (s.own.mode = .guest ∧ s.own.holdPassed = true))
include hpass

theorem serve_issue {c : ChanId} (hn : nextServed s = some c) : serve s = serve (issue s c) :=
  serve_of_some (by rw [serveOne_yield hy, if_neg hreq, hc]; dsimp only; rw [if_neg hpass, hn])

theorem serve_idle (hn : nextServed s = none) (hm : s.own.mode = .guest) (hd : stepDue s = false) : serve s = giveUp s :=
  serve_closes (by rw [serveOne_yield hy, if_neg hreq, hc]; dsimp only; rw [if_neg hpass, hn]; exact if_pos ⟨hm, hd⟩)
    (giveUp_closes s)

theorem serve_rest (hn : nextServed s = none) (hm : s.own.mode ≠ .guest ∨ stepDue s = true) : serve s = s :=
  serve_of_none (by
    rw [serveOne_yield hy, if_neg hreq, hc]; dsimp only; rw [if_neg hpass, hn]
    refine if_neg ?_
    rintro ⟨hg, hd⟩
    rcases hm with hm | hm
    · exact hm hg
    · rw [hm] at hd; cases hd)

end

/-- Round robin finds the first request after the channel last served (R83). -/
theorem nextServed_first {s : State} (k : Fin 4) (hk : s.presentedOf (s.arb.lastServed + 1 + k) ≠ none)
    (hj : ∀ j : Fin 4, j < k → s.presentedOf (s.arb.lastServed + 1 + j) = none) :
    nextServed s = some (s.arb.lastServed + 1 + k) := by
  have hlist : [s.arb.lastServed + 1, s.arb.lastServed + 2, s.arb.lastServed + 3, s.arb.lastServed + 4] =
      (List.finRange 4).map fun j : Fin 4 => s.arb.lastServed + 1 + j := by
    generalize s.arb.lastServed = l
    revert l; decide
  unfold nextServed
  rw [hlist, List.find?_map]
  have : (List.finRange 4).find? ((fun c => (s.presentedOf c).isSome) ∘ fun j : Fin 4 => s.arb.lastServed + 1 + j) = some k := by
    rw [List.find?_eq_some_iff_append]
    refine ⟨by simpa [Option.isSome_iff_ne_none] using hk, ?_⟩
    have split : ∀ k : Fin 4, List.finRange 4 = ((List.finRange 4).filter (· < k)) ++ k :: ((List.finRange 4).filter (k < ·)) := by
      decide
    refine ⟨_, _, split k, fun j hmem => ?_⟩
    simp [hj j (by simpa using (List.mem_filter.mp hmem).2)]
  rw [this]
  rfl

theorem nextServed_none {s : State} (h : ∀ c, s.presentedOf c = none) : nextServed s = none := by
  simp [nextServed, h]

/-- A held lock lets the holder's request alone be issued (R86). -/
theorem serveOne_locked {s : State} {h : ChanId} {k : LockKind} (hl : s.arb.lock = some (h, k)) (ho : portOpen s = true) :
    serveOne s = if (s.presentedOf h).isSome then some (issue s h) else none := by
  unfold serveOne
  rw [ho, hl]
  rfl

/-- Settles O7, by the claims in their order. -/
theorem yieldPointOrder : Obligations.YieldPointOrder := by
  refine ⟨stepDue_iff, fun s hclosed => ?_, fun s h k hl => ⟨fun hn => ?_, fun hp h1 h2 h3 => ?_⟩, fun s hy => ⟨fun hm hr => ?_,
    fun hreq => ⟨fun m p hc => serve_changeMode hy hreq hc, fun w hc => serve_startPulse hy hreq hc, fun hc hm hp => ?_,
      fun hc hpass => ⟨fun k hk hj => serve_issue hy hreq hc hpass (nextServed_first k hk hj), fun hn => ⟨fun hm hd => ?_,
        serve_rest hy hreq hc hpass (nextServed_none hn)⟩⟩⟩⟩⟩
  · refine serve_of_none (serveOne_closed ?_)
    rcases hclosed with h | h | h
    · exact portOpen_of_state h
    · exact portOpen_of_inflight h
    · simp [portOpen, h]
  · refine serve_of_none ?_
    cases ho : portOpen s with
    | false => exact serveOne_closed ho
    | true => rw [serveOne_locked hl ho, hn]; rfl
  · refine serve_of_some ?_
    rw [serveOne_locked hl (portOpen_true h1 h2 h3), if_pos (Option.isSome_iff_ne_none.mpr hp)]
  · exact serve_grant hy hm hr
  · rw [serve_holdPassed hy hreq hc hm hp, giveUp_eq hm]
  · rw [serve_idle hy hreq hc hpass (nextServed_none hn) hm hd, giveUp_eq hm, if_pos (.inr hn)]

end Sys2Proof.Machine
end

section
/-! PROOF. The issue of a request (R75 to R77, R85), and the end of a happening at the port (R74). -/

namespace Sys2Proof.Machine

open Sys2Proof.Safety

/-! ## The channel of a step -/

theorem step?_of_inStep {s : State} {c : ChanId} {sc : Script} {st : Step} (h : InStep s c sc st) : s.step? c = some st := by
  rw [step?_def, h.1, Option.bind_some, h.2.2]

/-- The channel of a step, with the step at another progress. -/
theorem setProgress_inStep {s : State} {c : ChanId} {sc : Script} {st : Step} (h : InStep s c sc st) (p : Progress) :
    s.setProgress c p = s.setChan c { s.chan c with script := some { sc with current := some { st with progress := p } } } := by
  obtain ⟨hs, -, hc⟩ := h
  rw [setProgress_eq, hs]
  simp only [Option.map_some, hc]

/-- The step's access fails: its ordinal, and the unit's address or the units done (R37). -/
theorem failAccess_eq {s : State} {c : ChanId} {sc : Script} {st : Step} (e : Status) (h : InStep s c sc st) :
    failAccess s c e = endScript s c e sc.ordinals (match st.progress with
      | .blockIn d _ _ => BitVec.ofNat 32 d
      | .blockOut d _ _ => BitVec.ofNat 32 d
      | _ => (StepRecord.addr st.bits).setWidth 32) := by
  unfold failAccess
  rw [step?_of_inStep h]
  dsimp only
  unfold failStep ordinalOf
  rw [h.1]
  rfl

/-! ## The checks at issue (R75) -/

theorem rights_allows_iff (g : Rights) (p : Purpose) : g.allows p = true ↔
    match g with
    | .readWrite => True
    | .readOnly => p ∈ [Purpose.read, .pollTry, .blockIn]
    | .writeOnly => p ∈ [Purpose.write, .modifyWrite, .blockOut]
    | .writeOnlyShadowed => p ∈ [Purpose.write, .modifyWrite, .blockOut] := by
  cases g <;> cases p <;> decide

theorem misaligned_iff (g : Region) (a : BusAddr) : g.misaligned a = true ↔ g.width = .w16 ∧ a.toNat % 2 = 1 := by
  simp [Region.misaligned]

theorem isWrite_iff (p : Purpose) : p.isWrite = true ↔ p ∈ [Purpose.write, .modifyWrite, .blockOut] := by
  cases p <;> decide

theorem narrow_eq (g : Region) (v : Value) : g.narrow v = if g.width = .w8 then v &&& 0xFF else v := by
  unfold Region.narrow
  cases g.width <;> rfl

/-- The state as the request has left the set, the channel last served (R83). -/
def taken (s : State) (c : ChanId) : State :=
  { s with arb := { s.arb with presented := s.arb.presented.set c none, lastServed := c } }

theorem issue_eq {s : State} {c : ChanId} {r : Request} (h : s.presentedOf c = some r) :
    issue s c = match checkIssue (taken s c) c r with
      | .inl e => failAccess (taken s c) c e
      | .inr (i, g, v) => beginAccess (taken s c) c r i g v := by
  unfold issue
  rw [h]
  rfl

section
variable {s : State} {c : ChanId} {r : Request} {i : RegionId} {g : Region}

theorem checkIssue_isolated (hm : s.own.mode = .isolated) : checkIssue s c r = .inl .portIsolated := if_pos hm

variable (hm : s.own.mode ≠ .isolated)
include hm

theorem checkIssue_miss (hl : lookup s.regions r.addr = none) : checkIssue s c r = .inl .regionMiss := by
  rw [checkIssue, if_neg hm, hl]

variable (hl : lookup s.regions r.addr = some (i, g))
include hl

theorem checkIssue_denied (ha : ¬ g.rights.allows r.purpose = true) : checkIssue s c r = .inl .regionDenied := by
  rw [checkIssue, if_neg hm, hl]
  exact if_pos (by simpa using ha)

variable (ha : g.rights.allows r.purpose = true)
include ha

theorem checkIssue_misaligned (ho : g.misaligned r.addr = true) : checkIssue s c r = .inl .misaligned := by
  rw [checkIssue, if_neg hm, hl]
  dsimp only
  rw [if_neg (by simp [ha]), if_pos ho]

variable (ho : ¬ g.misaligned r.addr = true)
include ho

theorem checkIssue_read (hw : ¬ r.purpose.isWrite = true) : checkIssue s c r = .inr (i, g, none) := by
  rw [checkIssue, if_neg hm, hl]
  dsimp only
  rw [if_neg (by simp [ha]), if_neg ho, if_neg hw]

theorem checkIssue_write (hw : r.purpose.isWrite = true) : checkIssue s c r =
    match driven s c r g with
    | some v => .inr (i, g, some v)
    | none => .inl .shadowMiss := by
  rw [checkIssue, if_neg hm, hl]
  dsimp only
  rw [if_neg (by simp [ha]), if_neg ho, if_pos hw] <;> rfl

end

/-! ## The access begun (R68, R85, R112) -/

theorem takeLock_eq (s : State) (c : ChanId) (m : Option LockKind) : takeLock s c m = { s with
    arb := { s.arb with lock := match m, s.arb.lock with
      | some k, none => some (c, k)
      | _, l => l },
    own := { s.own with
      lockTimer := if m ≠ none ∧ s.arb.lock = none ∧ s.own.mode = .master ∧ s.own.state = .holding ∧
          s.own.req = true ∧ s.own.lockTimer = none ∧ s.own.breakDue = false then
        (if s.own.params.lockLimit = 0 then none else some s.own.params.lockLimit)
      else s.own.lockTimer } } := by
  unfold takeLock
  cases m with
  | none => dsimp only; rw [if_neg fun h => h.1 rfl]
  | some k =>
    cases hl : s.arb.lock with
    | some held => dsimp only; rw [if_neg fun ⟨_, h, _⟩ => Option.some_ne_none held h, ← hl]
    | none =>
      dsimp only
      unfold startLockTimer
      by_cases ht : s.own.mode = .master ∧ s.own.state = .holding ∧ s.own.req = true ∧ s.own.lockTimer = none ∧
          s.own.breakDue = false
      · obtain ⟨h1, h2, h3, h4, h5⟩ := ht
        rw [if_pos ⟨h1, h2, h3, rfl, h4, h5⟩, if_pos ⟨by simp, rfl, h1, h2, h3, h4, h5⟩] <;> rfl
      · rw [if_neg fun ⟨h1, h2, h3, _, h4, h5⟩ => ht ⟨h1, h2, h3, h4, h5⟩, if_neg fun ⟨_, _, h⟩ => ht h]

theorem markIssued_eq {s : State} {c : ChanId} {sc : Script} {st : Step} (h : InStep s c sc st) :
    markIssued s c = s.setChan c { s.chan c with script := some { sc with current := some { st with
      progress := match st.progress with
        | .modWrite kept _ => .modWrite kept true
        | p => p } } } := by
  have same : s.setChan c { s.chan c with script := some { sc with current := some st } } = s := by
    obtain ⟨hs, -, hc⟩ := h
    rw [← hc, ← hs, setChan_chan]
  unfold markIssued
  rw [step?_of_inStep h]
  dsimp only
  obtain ⟨addr, bits, progress⟩ := st
  cases progress with
  | modWrite kept b => exact setProgress_inStep h _
  | _ => exact same.symm

/-- The request that has passed its checks is the access in flight. -/
theorem beginAccess_eq {s : State} {c : ChanId} {sc : Script} {st : Step} (h : InStep s c sc st) (r : Request)
    (i : RegionId) (g : Region) (v : Option Value) : beginAccess s c r i g v =
    { s with
      chans := s.chans.set c { s.chan c with
        wait := .access,
        script := some { sc with current := some { st with progress := match st.progress with
          | .modWrite kept _ => .modWrite kept true
          | p => p } } },
      arb := { s.arb with
        lock := match r.mark, s.arb.lock with
          | some k, none => some (c, k)
          | _, l => l,
        inflight := some { chan := c, addr := r.addr, purpose := r.purpose, value := v, mark := r.mark, index := i,
                           region := g, attempt := r.attempt } },
      own := { s.own with
        lockTimer := if r.mark ≠ none ∧ s.arb.lock = none ∧ s.own.mode = .master ∧ s.own.state = .holding ∧
            s.own.req = true ∧ s.own.lockTimer = none ∧ s.own.breakDue = false then
          (if s.own.params.lockLimit = 0 then none else some s.own.params.lockLimit)
        else s.own.lockTimer } } := by
  unfold beginAccess
  dsimp only
  rw [takeLock_eq, markIssued_eq (sc := sc) (st := st) (by exact h)]
  simp only [setWait_eq, setChan_setChan, chan_setChan_self]
  rfl

/-- A write half served from the store forms its value from the entry for its address (R46). -/
theorem driven_formed {s : State} {c : ChanId} {r : Request} {sc : Script} {st : Step} {g : Region} {e : ShadowEntry}
    (h : InStep s c sc st) (hv : r.value = none) (he : s.shadow.find? (fun x => x.addr == r.addr) = some e) :
    driven s c r g = some (g.narrow (modified st.bits (g.narrow e.value))) := by
  unfold driven shadowFind
  rw [hv, he, step?_of_inStep h]

theorem driven_miss {s : State} {c : ChanId} {r : Request} {g : Region} (hv : r.value = none)
    (he : ∀ e ∈ s.shadow, e.addr ≠ r.addr) : driven s c r g = none := by
  have hn : s.shadow.find? (fun x => x.addr == r.addr) = none := by simpa using he
  unfold driven shadowFind
  rw [hv, hn]

/-- Settles O8, by the checks in their order. -/
theorem issueActs : Obligations.IssueActs := by
  refine ⟨fun s c sc st e h => failAccess_eq e h, fun s c h => by rw [issue, h], ?_⟩
  intro s c r sc st hr h
  have hgone : InStep (taken s c) c sc st := h
  refine ⟨fun hm => ?_, fun hm hl => ?_, fun i g hm hl => ?_⟩
  · rw [issue_eq hr, checkIssue_isolated (s := taken s c) hm]; rfl
  · rw [issue_eq hr, checkIssue_miss (s := taken s c) hm hl]; rfl
  · dsimp only
    rw [← misaligned_iff]
    have hallows := rights_allows_iff g.rights r.purpose
    refine ⟨fun ha => ?_, fun ha ho => ?_, fun ha ho => ⟨fun hw => ?_, fun hw => ?_⟩⟩
    · rw [issue_eq hr, checkIssue_denied (s := taken s c) hm hl (mt hallows.mp ha)]; rfl
    · rw [issue_eq hr, checkIssue_misaligned (s := taken s c) hm hl (hallows.mpr ha) ho]; rfl
    · rw [issue_eq hr, checkIssue_read (s := taken s c) hm hl (hallows.mpr ha) ho (mt (isWrite_iff _).mp hw)]
      exact beginAccess_eq hgone r i g none
    · rw [issue_eq hr, checkIssue_write (s := taken s c) hm hl (hallows.mpr ha) ho ((isWrite_iff _).mpr hw)]
      refine ⟨fun v hv => ?_, fun hv => ⟨fun he => ?_, fun e he => ?_⟩⟩
      · have hd : driven (taken s c) c r g = some v := by unfold driven; rw [hv]
        rw [hd]
        exact beginAccess_eq hgone r i g (some v)
      · rw [driven_miss (s := taken s c) hv he]; rfl
      · rw [driven_formed (g := g) hgone hv he, ← narrow_eq, ← narrow_eq]
        exact beginAccess_eq hgone r i g _

end Sys2Proof.Machine
end

section
/-! PROOF. The end of a happening (R74): the steps a delivery starts, releases, the breaks and the region changes that waited, and
the service of the port. -/

namespace Sys2Proof.Machine

open Sys2Proof.Safety

/-! ## Work that reaches one channel alone -/

/-- No channel but this one changes, and no list of waiters. -/
structure OnChan (c : ChanId) (s t : State) : Prop where
  chan : ∀ d, d ≠ c → t.chan d = s.chan d
  sync : t.sync = s.sync
  attn : t.attn = s.attn

theorem OnChan.refl (c : ChanId) (s : State) : OnChan c s s := ⟨fun _ _ => rfl, rfl, rfl⟩

theorem OnChan.trans {c : ChanId} {s t u : State} (h : OnChan c s t) (g : OnChan c t u) : OnChan c s u :=
  ⟨fun d e => (g.chan d e).trans (h.chan d e), g.sync.trans h.sync, g.attn.trans h.attn⟩

theorem onNoList_congr {s t : State} {d : ChanId} (h1 : t.sync = s.sync) (h2 : t.attn = s.attn) (h : OnNoList s d) :
    OnNoList t d := by
  unfold OnNoList State.counter State.line; rw [h1, h2]; exact h

theorem OnChan.onNoList {c d : ChanId} {s t : State} (h : OnChan c s t) (hn : OnNoList s d) : OnNoList t d :=
  onNoList_congr h.sync h.attn hn

theorem setChan_onChan (s : State) (c : ChanId) (x : Channel) : OnChan c s (s.setChan c x) :=
  ⟨fun _ e => chan_setChan_ne s e x, rfl, rfl⟩

/-- Work that leaves channels, counters and lines. -/
theorem OnChan.of_eq {c : ChanId} {s t : State} (h1 : t.chans = s.chans) (h2 : t.sync = s.sync) (h3 : t.attn = s.attn) :
    OnChan c s t := ⟨fun d _ => by unfold State.chan; rw [h1], h2, h3⟩

section
variable {s : State} {c : ChanId}

theorem releaseLock_onChan (s : State) (c d : ChanId) : OnChan d s (releaseLock s c) := by
  unfold releaseLock; split
  · exact .of_eq rfl rfl rfl
  · exact .refl d s

theorem releaseStepLock_onChan (s : State) (c d : ChanId) : OnChan d s (releaseStepLock s c) := by
  unfold releaseStepLock; split
  · exact .of_eq rfl rfl rfl
  · exact .refl d s

theorem withdraw_onChan (s : State) (c d : ChanId) : OnChan d s (withdraw s c) := .of_eq rfl rfl rfl

theorem startFetch_onChan (s : State) (c : ChanId) : OnChan c s (startFetch s c) := by
  unfold startFetch; split
  · split
    · exact setChan_onChan ..
    · exact .refl c s
  · exact .refl c s

theorem adminDone_onChan (s : State) (on : AdminWait) (st : AdminStatus) (d : Detail) (c : ChanId) :
    OnChan c s (adminDone s on st d) := by
  obtain ⟨a, -, e⟩ := adminDone_frame s on st d
  rw [e]; exact .of_eq rfl rfl rfl

theorem closeStep_onChan (s : State) (c : ChanId) : OnChan c s (closeStep s c) :=
  (releaseStepLock_onChan s c c).trans (setChan_onChan ..)

theorem pauseCheck_onChan (s : State) (c : ChanId) : OnChan c s (pauseCheck s c) := by
  unfold pauseCheck; split
  · split
    · exact (setChan_onChan ..).trans (adminDone_onChan ..)
    · exact setChan_onChan ..
  · exact .refl c s

theorem releaseCheck_onChan (s : State) (c : ChanId) : OnChan c s (releaseCheck s c) := by
  unfold releaseCheck; split
  · exact (setChan_onChan ..).trans (adminDone_onChan ..)
  · exact .refl c s

/-- A script that ends, of a channel on no list, reaches no other channel (R13, R158). -/
theorem endScript_onChan (hn : OnNoList s c) (st : Status) (o : Nat) (d : Detail) : OnChan c s (endScript s c st o d) := by
  have k : OnChan c s (withdraw (releaseLock s c) c) := (releaseLock_onChan s c c).trans (withdraw_onChan ..)
  obtain ⟨x, hx⟩ := endScript_setChan s c st o d
  rw [hx, leaveLists_self (k.onNoList hn)]
  exact k.trans (setChan_onChan ..)

theorem failStep_onChan (hn : OnNoList s c) (st : Status) (d : Detail) : OnChan c s (failStep s c st d) := endScript_onChan hn ..

theorem startNext_onChan (hn : OnNoList s c) : OnChan c s (startNext s c) := by
  unfold startNext
  split
  · exact .refl c s
  · split
    · exact .refl c s
    · split
      · exact setChan_onChan ..
      · split
        · exact endScript_onChan hn ..
        · rename_i rest _ _
          dsimp only
          have k : OnChan c s (s.modScript c fun sc => { sc with ordinals := counterInc sc.ordinals, window := rest }) :=
            setChan_onChan ..
          split
          · exact k.trans (failStep_onChan (k.onNoList hn) ..)
          · split
            · exact k.trans (failStep_onChan (k.onNoList hn) ..)
            · exact (k.trans (setChan_onChan ..)).trans (setChan_onChan ..)

theorem abortCheck_onChan (hn : OnNoList s c) : OnChan c s (abortCheck s c) := by
  unfold abortCheck; split
  · split
    · exact endScript_onChan hn ..
    · exact setChan_onChan ..
  · exact setChan_onChan ..
  · exact .refl c s

theorem goOn_onChan (hn : OnNoList s c) : OnChan c s (goOn s c) := by
  unfold goOn; split
  · exact (startNext_onChan hn).trans (startFetch_onChan ..)
  · exact pauseCheck_onChan ..
  · exact abortCheck_onChan hn
  · exact releaseCheck_onChan ..
  · exact releaseCheck_onChan ..
  · exact .refl c s
  · exact .refl c s
  · exact .refl c s

theorem completeStep_onChan (hn : OnNoList s c) : OnChan c s (completeStep s c) :=
  (closeStep_onChan s c).trans (goOn_onChan ((closeStep_onChan s c).onNoList hn))

end

/-! ## Steps not released -/

/-- The step current on the channel, if there is one, has just started. -/
def StartsFresh (ch : Channel) : Prop := ∀ sc st, ch.script = some sc → sc.current = some st → st.progress = .fresh

theorem NoStep.startsFresh {ch : Channel} (h : NoStep ch) : StartsFresh ch := fun sc st hs hc => by
  rw [h sc hs] at hc; cases hc

theorem same_startsFresh {a b : Channel} (h : b.script = a.script) (ha : StartsFresh a) : StartsFresh b := by
  unfold StartsFresh; rw [h]; exact ha

theorem endScript_noStep (s : State) (c : ChanId) (st : Status) (o : Nat) (d : Detail) :
    NoStep ((endScript s c st o d).chan c) := by
  unfold endScript
  dsimp only
  intro sc h
  rw [startCompletion_script] at h
  simp only [modScript_eq, chan_setChan_self, Option.map_eq_some_iff] at h
  obtain ⟨x, -, rfl⟩ := h
  rfl

theorem endScript_startsFresh (s : State) (c : ChanId) (st : Status) (o : Nat) (d : Detail) :
    StartsFresh ((endScript s c st o d).chan c) :=
  NoStep.startsFresh fun sc h => endScript_noStep s c st o d sc h

theorem noStep_setWait {s : State} {c : ChanId} (w : WaitReason) (h : NoStep (s.chan c)) : NoStep ((s.setWait c w).chan c) := by
  simpa [NoStep] using h

theorem startNext_startsFresh {s : State} {c : ChanId} (h : NoStep (s.chan c)) : StartsFresh ((startNext s c).chan c) := by
  unfold startNext
  split
  · exact h.startsFresh
  · rename_i sc hs
    split
    · exact h.startsFresh
    · split
      · exact (noStep_setWait _ h).startsFresh
      · split
        · exact endScript_startsFresh _ _ _ _ _
        · dsimp only
          split
          · exact endScript_startsFresh _ _ _ _ _
          · split
            · exact endScript_startsFresh _ _ _ _ _
            · intro sc' st hs' hc
              simp only [setWait_eq, modScript_eq, chan_setChan_self, hs, Option.map_some, Option.some.injEq] at hs'
              subst hs'
              cases hc
              rfl

theorem startFetch_script (s : State) (c : ChanId) : ((startFetch s c).chan c).script = (s.chan c).script := by
  unfold startFetch
  split
  · split
    · simp
    · rfl
  · rfl

theorem pauseCheck_startsFresh {s : State} {c : ChanId} (h : NoStep (s.chan c)) : StartsFresh ((pauseCheck s c).chan c) := by
  unfold pauseCheck
  split
  · split
    · rw [adminDone_chan]
      exact NoStep.startsFresh (by simpa [NoStep] using h)
    · exact (noStep_setWait _ h).startsFresh
  · exact h.startsFresh

theorem goOn_startsFresh {s : State} {c : ChanId} (h : NoStep (s.chan c)) : StartsFresh ((goOn s c).chan c) := by
  have released : StartsFresh ((releaseCheck s c).chan c) := by
    unfold releaseCheck releaseChan
    split
    · rw [adminDone_chan, chan_setChan_self]
      exact NoStep.startsFresh (by simp [NoStep, Channel.reset])
    · exact h.startsFresh
  unfold goOn
  split
  · exact same_startsFresh (startFetch_script _ c) (startNext_startsFresh h)
  · exact pauseCheck_startsFresh h
  · unfold abortCheck
    split
    · split
      · exact endScript_startsFresh _ _ _ _ _
      · exact (noStep_setWait _ h).startsFresh
    · exact (noStep_setWait _ h).startsFresh
    · exact h.startsFresh
  · exact released
  · exact released
  all_goals exact h.startsFresh

theorem completeStep_startsFresh (s : State) (c : ChanId) : StartsFresh ((completeStep s c).chan c) := by
  refine goOn_startsFresh fun sc hs => ?_
  simp only [closeStep, modChan_eq, chan_setChan_self, Option.map_eq_some_iff] at hs
  obtain ⟨x, -, rfl⟩ := hs
  rfl

/-- Where one channel alone has changed, and its step has just started if there is one, nothing is released. -/
theorem quiescent_of_onChan {c : ChanId} {s t : State} (k : OnChan c s t)
    (hs : ∀ d st b, d ≠ c → s.step? d = some st → st.progress ≠ .released b) (hc : StartsFresh (t.chan c)) : Quiescent t := by
  intro d st b hst
  by_cases e : d = c
  · subst e
    rw [step?_def, Option.bind_eq_some_iff] at hst
    obtain ⟨sc, hsc, hcur⟩ := hst
    rw [hc sc st hsc hcur]; simp
  · rw [step?_def, k.chan d e, ← step?_def] at hst
    exact hs d st b e hst

theorem quiescent_chans {s t : State} (h : t.chans = s.chans) (hq : Quiescent s) : Quiescent t := by
  intro c st b hst
  refine hq c st b ?_
  rw [← hst]
  unfold State.step? State.chan
  rw [h]

/-! ## The steps a delivery starts (R7, R8) -/

theorem carrySteps_order (s : State) (c : ChanId) :
    let starts : Prop := (s.chan c).st = .running ∧ ∃ sc st, InStep s c sc st ∧ st.progress = .fresh
    (starts → carrySteps s c = carrySteps (takeStep s c) c) ∧ (¬ starts → carrySteps s c = s) := by
  intro starts
  have hiff : startedStep (s.chan c) = true ↔ starts := by
    rw [startedStep_iff]
    exact and_congr_right fun _ => ⟨fun ⟨sc, st, hs, he, hc, hp⟩ => ⟨sc, st, ⟨hs, he, hc⟩, hp⟩,
      fun ⟨sc, st, ⟨hs, he, hc⟩, hp⟩ => ⟨sc, st, hs, he, hc, hp⟩⟩
  exact ⟨fun h => carrySteps_take (hiff.mpr h), fun h => carrySteps_self (by simpa using mt hiff.mp h)⟩

/-! ## Releases (R61, R63) -/

/-- Where one step is released, its completion is all that the releases bring about. -/
theorem finishReleases_one {s t : State} {c : ChanId} (hc : finishRelease s c = t) (ht : Quiescent t)
    (hs : ∀ d st b, d ≠ c → s.step? d = some st → st.progress ≠ .released b) : finishReleases s = t := by
  have passed (l : List ChanId) : l.foldl finishRelease t = t := by
    induction l with
    | nil => rfl
    | cons d l ih => rw [List.foldl_cons, finishRelease_self (ht d), ih]
  have walk (l : List ChanId) (hl : c ∈ l) : l.foldl finishRelease s = t := by
    induction l with
    | nil => cases hl
    | cons d l ih =>
      rw [List.foldl_cons]
      by_cases e : d = c
      · subst e; rw [hc, passed]
      · rw [finishRelease_self fun st b => hs d st b e]
        exact ih ((List.mem_cons.mp hl).resolve_left (Ne.symm e))
  exact walk _ (mem_allChans c)

theorem settle_of_finishReleases {s t : State} (h : finishReleases s = t) (ht : Quiescent t) : settle s = settle t := by
  unfold settle
  rw [h, finishReleases_self ht]

theorem finishRelease_released {s : State} {c : ChanId} {st : Step} {b : Bool} (h : s.step? c = some st)
    (hp : st.progress = .released b) :
    finishRelease s c = completeStep (if b then s.warn c warnAttnSaturated else s) c := by
  unfold finishRelease
  rw [h]
  dsimp only
  rw [hp]

theorem settle_released {s : State} {c : ChanId} {st : Step} {b : Bool} (h : s.step? c = some st)
    (hp : st.progress = .released b) (hn : OnNoList s c)
    (hs : ∀ d st' b', d ≠ c → s.step? d = some st' → st'.progress ≠ .released b') :
    settle s = settle (completeStep (if b then s.warn c warnAttnSaturated else s) c) := by
  have hwarn : OnChan c s (if b then s.warn c warnAttnSaturated else s) := by
    split
    · exact setChan_onChan ..
    · exact .refl c s
  have hq := quiescent_of_onChan (hwarn.trans (completeStep_onChan (hwarn.onNoList hn))) hs (completeStep_startsFresh _ c)
  exact settle_of_finishReleases (finishReleases_one (finishRelease_released h hp) hq hs) hq

/-! ## What waited for the end of an access (R74 steps 3 and 4) -/

theorem settle_quiescent {s : State} (hq : Quiescent s) (hf : s.arb.inflight = none) : settle s = afterDelivery s := by
  rw [settle_open hf, finishReleases_self hq]

theorem settle_inflight {s : State} (hq : Quiescent s) (hf : s.arb.inflight.isSome = true) : settle s = s := by
  rw [settle_held hf, finishReleases_self hq]

/-- Two states with the same breaks behind them end the happening alike. -/
theorem settle_of_breaks {s t : State} (hs : Quiescent s) (hsf : s.arb.inflight = none) (ht : Quiescent t)
    (htf : t.arb.inflight = none) (h : waitingBreaks s = waitingBreaks t) : settle s = settle t := by
  rw [settle_quiescent hs hsf, settle_quiescent ht htf, afterDelivery, afterDelivery, h]

theorem waitingBreaks_due {s : State} (h : s.own.breakDue = true) : waitingBreaks s =
    if (breakLock { s with own := { s.own with breakDue := false } }).own.preemptDue then
      preempt (breakLock { s with own := { s.own with breakDue := false } })
    else breakLock { s with own := { s.own with breakDue := false } } := by
  unfold waitingBreaks; rw [if_pos h]

theorem waitingBreaks_past {s : State} (h : s.own.breakDue = false) :
    waitingBreaks s = if s.own.preemptDue then preempt s else s := by
  have hb : ¬ s.own.breakDue = true := by simp [h]
  unfold waitingBreaks
  rw [if_neg hb]

/-- A break that waited is as good as taken. -/
theorem waitingBreaks_break {s t : State} (h : s.own.breakDue = true)
    (hb : breakLock { s with own := { s.own with breakDue := false } } = t) (ht : t.own.breakDue = false) :
    waitingBreaks s = waitingBreaks t := by
  rw [waitingBreaks_due h, waitingBreaks_past ht, hb]

theorem ChanWork.breakDue {s t : State} (k : ChanWork s t) : t.own.breakDue = s.own.breakDue := by
  obtain ⟨st, lt, e, -⟩ := k.own
  rw [e]

/-- The holder's script ends with LOCK_BROKEN, where it runs, pauses or is paused (R64, R115). -/
theorem lockBroken_active {s : State} {h : ChanId} {sc : Script} (hs : (s.chan h).script = some sc) (he : sc.ending = none)
    (hst : (s.chan h).st = .running ∨ (s.chan h).st = .pausing ∨ (s.chan h).st = .paused) :
    lockBroken s h = endScript s h .lockBroken (match sc.current with
      | some _ => sc.ordinals
      | none => sc.ordinals + 1) (match sc.current with
      | some st => (match st.progress with
        | .modWrite _ false => 0x80000000
        | .blockIn d _ _ => BitVec.ofNat 32 d
        | .blockOut d _ _ => BitVec.ofNat 32 d
        | _ => 0)
      | none => 0) := by
  have hrun : (sc.ending.isNone && ((s.chan h).st == .running || (s.chan h).st == .pausing || (s.chan h).st == .paused)) = true := by
    rw [he]
    rcases hst with e | e | e <;> rw [e] <;> rfl
  unfold lockBroken
  dsimp only
  rw [hs]
  dsimp only
  rw [if_pos hrun]
  unfold ordinalNow breakDetail
  rw [step?_def, hs, Option.bind_some]
  cases hc : sc.current with
  | none => simp only [hc]; rfl
  | some st =>
    simp only [hc]
    obtain ⟨addr, bits, progress⟩ := st
    cases progress with
    | modWrite kept b => cases b <;> rfl
    | _ => rfl

theorem lockBroken_aborting {s : State} {h : ChanId} (hst : (s.chan h).st = .aborting) : lockBroken s h = s := by
  unfold lockBroken
  dsimp only
  rw [hst]
  split
  · rw [if_neg (by simp)]
  · rfl

/-- The state with the broken lock given up, and the holder's request withdrawn (R114). -/
def lockFreed (s : State) (h : ChanId) : State :=
  { s with
    arb := { s.arb with lock := none, presented := s.arb.presented.set h none },
    own := { s.own with breakDue := false, lockTimer := none } }

theorem breakLock_held {s : State} {h : ChanId} {k : LockKind} (hl : s.arb.lock = some (h, k)) :
    breakLock { s with own := { s.own with breakDue := false } } = lockBroken (lockFreed s h) h := by
  unfold breakLock
  rw [show State.arb { s with own := { s.own with breakDue := false } } = s.arb from rfl, hl]
  rfl

theorem breakLock_none {s : State} (hl : s.arb.lock = none) : breakLock s = s := by
  unfold breakLock; rw [hl]

/-! ## Preemption (R119) -/

/-- A raise reads and changes nothing of the Ownership Controller. -/
theorem raiseEvent_own (s : State) (o : Ownership) (k : EventKind) (src : Nat) (d : Detail) :
    raiseEvent { s with own := o } k src d = { raiseEvent s k src d with own := o } := by
  unfold raiseEvent startEventWrite
  dsimp only
  split
  · split <;> rfl
  · rfl

/-- The state as the bus has been lost, in one of the two states without it. -/
def busLost (s : State) (st : OwnState) : State :=
  raiseEvent { s with own := { s.own with
    state := st, holdTimer := none, turnTimer := none, holdPassed := false, preemptDue := false } } .preempted 0 0

theorem busLost_frame (s : State) (st : OwnState) : ∃ e, busLost s st = { s with events := e, own := { s.own with
    state := st, holdTimer := none, turnTimer := none, holdPassed := false, preemptDue := false } } :=
  raiseEvent_frame { s with own := { s.own with
    state := st, holdTimer := none, turnTimer := none, holdPassed := false, preemptDue := false } } .preempted 0 0

theorem preempt_unlocked {s : State} (hl : s.arb.lock = none) : preempt s =
    match changeIfWaiting (busLost s .released) with
    | some s' => s'
    | none => askBus (busLost s .released) := by
  unfold preempt
  dsimp only
  rw [breakLock_none hl]
  rfl

theorem busLost_cmd (s : State) (st : OwnState) : (busLost s st).own.cmd = s.own.cmd := by
  obtain ⟨e, he⟩ := busLost_frame s st
  rw [he]

theorem askBus_busLost {s : State} (hm : s.own.mode = .guest) : askBus (busLost s .released) =
    busLost s (if s.own.gnt = true ∨ ∀ c, s.presentedOf c = none then .released else .requesting) := by
  obtain ⟨e, he⟩ := busLost_frame s .released
  have hnone : (busLost s .released).noneP = s.noneP := by rw [he]; rfl
  have hown : (busLost s .released).own = { s.own with
    state := .released, holdTimer := none, turnTimer := none, holdPassed := false, preemptDue := false } := by rw [he]
  unfold askBus
  by_cases h : s.own.gnt = true ∨ ∀ c, s.presentedOf c = none
  · rw [if_pos h, if_neg]
    rintro ⟨-, -, hn, hg⟩
    rw [hown] at hg
    rcases h with h | h
    · rw [h] at hg; cases hg
    · rw [hnone, (noneP_iff s).mpr h] at hn; cases hn
  · rw [if_neg h]
    rw [not_or] at h
    have hn : s.noneP = false := by rw [← Bool.not_eq_true, noneP_iff]; exact h.2
    rw [if_pos ⟨by rw [hown]; exact hm, by rw [hown], hnone.trans hn, by rw [hown]; simpa using h.1⟩]
    have move := raiseEvent_own { s with own := { s.own with
      state := .released, holdTimer := none, turnTimer := none, holdPassed := false, preemptDue := false } } { s.own with
      state := .requesting, holdTimer := none, turnTimer := none, holdPassed := false, preemptDue := false } .preempted 0 0
    rw [hown]
    exact move.symm

/-- Isolating a channel that stands on no list reaches no other channel, and leaves it no step released. -/
theorem isolateChan_onChan {s : State} {c : ChanId} (hn : s.presentedOf c ≠ none → OnNoList s c) :
    OnChan c s (isolateChan s c) := by
  unfold isolateChan
  split
  · rename_i r hr
    have hn := hn (by rw [hr]; simp)
    refine (withdraw_onChan s c c).trans ?_
    unfold failAccess
    split
    · exact failStep_onChan ((withdraw_onChan s c c).onNoList hn) ..
    · exact .refl c _
  · exact .refl c s

theorem isolateChan_quiescent {s : State} {c : ChanId} (hn : s.presentedOf c ≠ none → OnNoList s c) (hq : Quiescent s) :
    Quiescent (isolateChan s c) := by
  intro d st b hst
  by_cases e : d = c
  · subst e
    revert hst
    unfold isolateChan failAccess
    split
    · split
      · intro hst
        rw [step?_def, Option.bind_eq_some_iff] at hst
        obtain ⟨sc, hsc, hcur⟩ := hst
        rw [endScript_noStep _ _ _ _ _ sc hsc] at hcur
        cases hcur
      · exact fun hst => hq d st b hst
    · exact fun hst => hq d st b hst
  · rw [step?_def, (isolateChan_onChan hn).chan d e, ← step?_def] at hst
    exact hq d st b hst

theorem isolateChans_quiescent (l : List ChanId) {s : State} (hn : ∀ c, s.presentedOf c ≠ none → OnNoList s c)
    (hq : Quiescent s) : Quiescent (l.foldl isolateChan s) := by
  induction l generalizing s with
  | nil => exact hq
  | cons c l ih =>
    refine ih (fun d hd => ?_) (isolateChan_quiescent (hn c) hq)
    exact (isolateChan_onChan (hn c)).onNoList (hn d ((isolateChan_fewer s c).presented d hd))

theorem adminDone_chans (s : State) (on : AdminWait) (st : AdminStatus) (d : Detail) : (adminDone s on st d).chans = s.chans := by
  obtain ⟨a, -, e⟩ := adminDone_frame s on st d
  rw [e]

theorem askBus_chans (s : State) : (askBus s).chans = s.chans := by unfold askBus; split <;> rfl

theorem enterSettling_chans (s : State) : (enterSettling s).chans = s.chans := by unfold enterSettling; split <;> rfl

theorem enterMode_chans (s : State) (m : PortMode) : (enterMode s m).chans = s.chans := by
  unfold enterMode
  dsimp only
  split
  · rfl
  · split
    · rfl
    · rw [enterSettling_chans]
  · rw [askBus_chans]

theorem endPassage_chans (s : State) (m : PortMode) : (endPassage s m).chans = s.chans := by
  unfold endPassage
  dsimp only
  split
  · rw [adminDone_chans]
    exact enterMode_chans s m
  · exact enterMode_chans s m

/-- A change of mode leaves no step released, where no presenting channel stands on a list. -/
theorem changeMode_quiescent {s : State} (m : PortMode) (p : PortParams) (hn : ∀ c, s.presentedOf c ≠ none → OnNoList s c)
    (hq : Quiescent s) : Quiescent (changeMode s m p) := by
  have left (t : State) (ht : t.chans = s.chans) (hp : t.arb = s.arb) (h1 : t.sync = s.sync) (h2 : t.attn = s.attn) :
      Quiescent (leaveMode t) := by
    unfold leaveMode
    refine isolateChans_quiescent _ (fun c hc => ?_) (quiescent_chans ht hq)
    exact onNoList_congr h1 h2 (hn c (presentedOf_congr (s := s) c hp ▸ hc))
  unfold changeMode
  dsimp only
  split
  · exact quiescent_chans ((adminDone_chans ..).trans (enterMode_chans ..)) hq
  · have k := left { s with own := { s.own with params := p, cmd := none, changeTimer := none, passage := none } } rfl rfl rfl rfl
    split
    · exact quiescent_chans (adminDone_chans ..) k
    · split
      · exact quiescent_chans (endPassage_chans ..) k
      · exact quiescent_chans (by rfl) k

/-- The breaks that wait stand as they stood. -/
structure SameBreaks (s t : State) : Prop where
  lock : t.own.breakDue = s.own.breakDue
  preempt : t.own.preemptDue = s.own.preemptDue

/-- Work on a state whose breaks stand as in another's. -/
theorem SameBreaks.behind {s s' t : State} (g : SameBreaks s' t) (h1 : s'.own.breakDue = s.own.breakDue)
    (h2 : s'.own.preemptDue = s.own.preemptDue) : SameBreaks s t := ⟨g.lock.trans h1, g.preempt.trans h2⟩

theorem SameBreaks.trans {s t u : State} (h : SameBreaks s t) (g : SameBreaks t u) : SameBreaks s u :=
  ⟨g.lock.trans h.lock, g.preempt.trans h.preempt⟩

theorem ChanWork.sameBreaks {s t : State} (k : ChanWork s t) : SameBreaks s t := ⟨k.breakDue, k.preemptDue⟩

theorem adminDone_sameBreaks (s : State) (on : AdminWait) (st : AdminStatus) (d : Detail) : SameBreaks s (adminDone s on st d) := by
  obtain ⟨a, -, e⟩ := adminDone_frame s on st d
  rw [e]; exact ⟨rfl, rfl⟩

theorem enterSettling_sameBreaks (s : State) : SameBreaks s (enterSettling s) := by
  unfold enterSettling; split <;> exact ⟨rfl, rfl⟩

theorem enterMode_sameBreaks (s : State) (m : PortMode) : SameBreaks s (enterMode s m) := by
  have k : SameBreaks s { s with own := { s.own with mode := m, passage := none, turnTimer := none } } := ⟨rfl, rfl⟩
  unfold enterMode
  dsimp only
  split
  · exact k
  · split
    · exact ⟨rfl, rfl⟩
    · exact k.trans (enterSettling_sameBreaks _)
  · exact (askBus_work _).sameBreaks.behind rfl rfl

theorem endPassage_sameBreaks (s : State) (m : PortMode) : SameBreaks s (endPassage s m) := by
  unfold endPassage
  dsimp only
  split
  · exact (enterMode_sameBreaks s m).trans ((adminDone_sameBreaks ..).behind rfl rfl)
  · exact enterMode_sameBreaks s m

theorem leaveMode_sameBreaks (s : State) : SameBreaks s (leaveMode s) := by
  unfold leaveMode
  exact (ChanWork.foldl _ isolateChan_work _ _).sameBreaks.behind rfl rfl

/-- Breaks that wait are none of a change of mode's. -/
theorem changeMode_sameBreaks (s : State) (m : PortMode) (p : PortParams) : SameBreaks s (changeMode s m p) := by
  unfold changeMode
  dsimp only
  generalize hs : State.mk .. = s'
  have k : SameBreaks s s' := by rw [← hs]; exact ⟨rfl, rfl⟩
  split
  · exact k.trans ((enterMode_sameBreaks ..).trans (adminDone_sameBreaks ..))
  · have left := k.trans (leaveMode_sameBreaks s')
    split
    · exact left.trans (adminDone_sameBreaks ..)
    · split
      · exact left.trans ((endPassage_sameBreaks ..).behind rfl rfl)
      · exact left.trans ⟨rfl, rfl⟩

/-! ## Region changes that waited (R74 step 4) -/

/-- The entries a region change keeps (R98, R99). -/
theorem changeKeeps_eq (s : State) (ch : RegionChange) : changeKeeps (s.regions.set ch.index ch.entry) (changedTable s.regions ch).2 =
    fun e => shadowedAt (s.regions.set ch.index ch.entry) e.addr &&
      !(e.index == ch.index && (match s.region ch.index, ch.entry with
        | some old, some g => old.width != g.width
        | _, _ => false)) := by
  funext e
  unfold changeKeeps
  congr 1
  cases ch with
  | clear i =>
    have : (changedTable s.regions (.clear i)).2 = none := rfl
    rw [this]
    simp only [RegionChange.entry]
    cases s.region i <;> simp
  | set i g =>
    simp only [changedTable, RegionChange.index, RegionChange.entry]
    have hreg : s.regions[i] = s.region i := rfl
    rw [hreg]
    cases s.region i with
    | none => simp
    | some old =>
      by_cases hw : old.width = g.width
      · simp [hw]
      · have hne : (old.width != g.width) = true := by simpa using hw
        by_cases he : e.index = i
        · subst he; simp [hw]
        · have hn : (some i != some e.index) = true := by simpa using Ne.symm he
          have hi : (e.index == i) = false := by simpa using he
          simp [hw, hn, hi]

/-- A region change answers its command with the number of entries it removed (R98, R99). -/
theorem applyRegion_waiting {s : State} {id : BitVec 16} (ch : RegionChange) (hp : s.admin.progress = .waiting id .region) :
    let table := s.regions.set ch.index ch.entry
    let keep : ShadowEntry → Bool := fun e => shadowedAt table e.addr &&
      !(e.index == ch.index && (match s.region ch.index, ch.entry with
        | some old, some g => old.width != g.width
        | _, _ => false))
    applyRegion s ch = adminAnswer { s with regions := table, shadow := s.shadow.filter keep, regionWait := none } id .ok
      (BitVec.ofNat 32 (s.shadow.length - (s.shadow.filter keep).length)) := by
  intro table keep
  unfold applyRegion shadowPurge
  dsimp only
  rw [changedTable_table, changeKeeps_eq]
  exact adminDone_waiting _ _ hp

theorem settle_region {s : State} {ch : RegionChange} (hq : Quiescent s) (hf : s.arb.inflight = none)
    (h1 : s.own.breakDue = false) (h2 : s.own.preemptDue = false)
    (hw : s.regionWait = some ch) : settle s = settle (applyRegion s ch) := by
  obtain ⟨a, -, e⟩ := applyRegion_eq s ch
  have hq' : Quiescent (applyRegion s ch) := quiescent_chans (by rw [e]) hq
  have hb : waitingBreaks s = s := by rw [waitingBreaks_past h1, if_neg (by simp [h2])]
  have hb' : waitingBreaks (applyRegion s ch) = applyRegion s ch := by
    rw [waitingBreaks_past (by rw [e]; exact h1), if_neg (by rw [e]; simp [h2])]
  have hr : waitingRegion s = applyRegion s ch := by unfold waitingRegion; rw [hw]
  rw [settle_quiescent hq hf, settle_quiescent hq' (by rw [e]; exact hf), afterDelivery, afterDelivery, hb, hb', hr,
    waitingRegion_self (by rw [e])]

/-! ## The breaks that waited, taken -/

section
variable {s : State} (hq : Quiescent s) (hf : s.arb.inflight = none)
include hq hf

/-- The holder's script ends with LOCK_BROKEN as a lock break that waited is taken (R64, R115). -/
theorem settle_break_active {h : ChanId} {k : LockKind} {sc : Script} (hb : s.own.breakDue = true)
    (hl : s.arb.lock = some (h, k)) (hs : (s.chan h).script = some sc) (hn : OnNoList s h) (he : sc.ending = none)
    (hst : (s.chan h).st = .running ∨ (s.chan h).st = .pausing ∨ (s.chan h).st = .paused) :
    settle s = settle (endScript (lockFreed s h) h .lockBroken (match sc.current with
      | some _ => sc.ordinals
      | none => sc.ordinals + 1) (match sc.current with
      | some st => (match st.progress with
        | .modWrite _ false => 0x80000000
        | .blockIn d _ _ => BitVec.ofNat 32 d
        | .blockOut d _ _ => BitVec.ofNat 32 d
        | _ => 0)
      | none => 0)) := by
  have hbroken := (breakLock_held hl).trans (lockBroken_active (s := lockFreed s h) hs he hst)
  generalize (match sc.current with
      | some _ => sc.ordinals
      | none => sc.ordinals + 1) = o at hbroken ⊢
  generalize (match sc.current with
      | some st => (match st.progress with
        | .modWrite _ false => 0x80000000
        | .blockIn d _ _ => BitVec.ofNat 32 d
        | .blockOut d _ _ => BitVec.ofNat 32 d
        | _ => 0)
      | none => 0) = d at hbroken ⊢
  have work := endScript_work (lockFreed s h) h .lockBroken o d
  refine settle_of_breaks hq hf ?_ (work.inflight.trans hf) (waitingBreaks_break hb hbroken work.breakDue)
  have hn' : OnNoList (lockFreed s h) h := onNoList_congr rfl rfl hn
  exact quiescent_of_onChan (s := lockFreed s h) (endScript_onChan hn' _ _ _) (fun d st b _ => hq d st b)
    (endScript_startsFresh _ _ _ _ _)

theorem settle_break_aborting {h : ChanId} {k : LockKind} (hb : s.own.breakDue = true) (hl : s.arb.lock = some (h, k))
    (hst : (s.chan h).st = .aborting) : settle s = settle (lockFreed s h) :=
  settle_of_breaks hq hf (quiescent_chans (by rfl) hq) hf
    (waitingBreaks_break hb ((breakLock_held hl).trans (lockBroken_aborting hst)) rfl)

theorem settle_break_none (hb : s.own.breakDue = true) (hl : s.arb.lock = none) :
    settle s = settle { s with own := { s.own with breakDue := false } } :=
  settle_of_breaks hq hf (quiescent_chans (by rfl) hq) hf (waitingBreaks_break hb (breakLock_none hl) rfl)

/-- A preemption that waited is taken, with a SET_PORT_MODE that waits behind it (R119). -/
theorem settle_preempt_mode {m : PortMode} {p : PortParams} (hb : s.own.breakDue = false) (hp : s.own.preemptDue = true)
    (hl : s.arb.lock = none) (hc : s.own.cmd = some (.setMode m p)) (hn : ∀ c, s.presentedOf c ≠ none → OnNoList s c) :
    settle s = settle (changeMode (busLost s .released) m p) := by
  obtain ⟨e, he⟩ := busLost_frame s .released
  have hchange : preempt s = changeMode (busLost s .released) m p := by
    rw [preempt_unlocked hl, changeIfWaiting, busLost_cmd, hc]
  have k := changeMode_sameBreaks (busLost s .released) m p
  have hlock : (busLost s .released).own.breakDue = false := by rw [he]; exact hb
  have hpre : (busLost s .released).own.preemptDue = false := by rw [he]
  have hq' : Quiescent (changeMode (busLost s .released) m p) := by
    refine changeMode_quiescent m p (fun c hp => ?_) (quiescent_chans (by rw [he]) hq)
    rw [he] at hp ⊢
    exact hn c hp
  refine settle_of_breaks hq hf hq' ((changeMode_turned ..).inflight_eq.trans (by rw [he]; exact hf)) ?_
  rw [waitingBreaks_past hb, if_pos hp, hchange, waitingBreaks_past (k.lock.trans hlock),
    if_neg (by rw [k.preempt, hpre]; simp)]

/-- A preemption that waited is taken, and the bus asked for again while GNT is low and a request stands (R116, R119). -/
theorem settle_preempt_ask (hb : s.own.breakDue = false) (hp : s.own.preemptDue = true) (hl : s.arb.lock = none)
    (hm : s.own.mode = .guest) (hc : ∀ m p, s.own.cmd ≠ some (.setMode m p)) :
    settle s = settle (busLost s (if s.own.gnt = true ∨ ∀ c, s.presentedOf c = none then .released else .requesting)) := by
  have hask : preempt s = busLost s (if s.own.gnt = true ∨ ∀ c, s.presentedOf c = none then .released else .requesting) := by
    rw [preempt_unlocked hl, changeIfWaiting, busLost_cmd, ← askBus_busLost hm]
    split
    · rename_i heq
      split at heq
      · rename_i m p hcm
        exact absurd hcm (hc m p)
      · cases heq
    · rfl
  generalize (if s.own.gnt = true ∨ ∀ c, s.presentedOf c = none then OwnState.released else .requesting) = st at hask ⊢
  obtain ⟨e, he⟩ := busLost_frame s st
  have hlock : (busLost s st).own.breakDue = false := by rw [he]; exact hb
  have hpre : ¬ (busLost s st).own.preemptDue = true := by rw [he]; simp
  refine settle_of_breaks hq hf (quiescent_chans (by rw [he]) hq) (by rw [he]; exact hf) ?_
  rw [waitingBreaks_past hb, if_pos hp, hask, waitingBreaks_past hlock, if_neg hpre]

end

/-- Settles O9, part by part: what a delivery starts, releases, and what follows once no access is in flight. -/
theorem happeningEnds : Obligations.HappeningEnds := by
  refine ⟨carrySteps_order, fun s c st b h hp hn hs => settle_released h hp hn hs, fun s hq hf => settle_inflight hq hf,
    fun s hq hw => settle_serve hq hw, fun s hq hf => ⟨fun hb => ⟨settle_break_none hq hf hb, fun h k sc hl hs hn =>
      ⟨settle_break_active hq hf hb hl hs hn, settle_break_aborting hq hf hb hl⟩⟩,
      fun hb hp hl hm => ⟨fun m p hc hn => settle_preempt_mode hq hf hb hp hl hc hn, fun hc => settle_preempt_ask hq hf hb hp hl hm hc⟩,
      fun hb hp id i new hw hch => ?_⟩⟩
  rcases hch with ⟨hch, rfl⟩ | ⟨g, hch, rfl⟩
  · rw [settle_region hq hf hb hp hch, applyRegion_waiting _ hw]; rfl
  · rw [settle_region hq hf hb hp hch, applyRegion_waiting _ hw]; rfl

end Sys2Proof.Machine
end

section
/-! PROOF. The fields of the records the host writes (11.2): the positions a record leaves unused, the common checks of an admin
command, and what a command that is taken does. -/

namespace Sys2Proof.Machine

open Sys2Proof.Safety

/-! ## Ranges of a field -/

theorem multipleOf_iff (a : HostAddr) (m : Nat) : multipleOf a m = true ↔ a.toNat % m = 0 := by simp [multipleOf]

theorem hostRangeOk_iff (a : HostAddr) (size : Nat) : hostRangeOk a size = true ↔ a.toNat + size ≤ 2 ^ 64 :=
  decide_eq_true_iff

theorem log2_of_pow {size j : Nat} (h : size = 2 ^ j) : Nat.log2 size = j := by rw [h, Nat.log2_two_pow]

/-- A ring size in its range is a power of two whose exponent is in the range of the exponents. -/
theorem ringSizeOk_iff (a b size : Nat) : ringSizeOk (2 ^ a) (2 ^ b) size = true ↔ ∃ j, a ≤ j ∧ j ≤ b ∧ size = 2 ^ j := by
  simp only [ringSizeOk, Bool.and_eq_true, decide_eq_true_eq, beq_iff_eq]
  constructor
  · rintro ⟨⟨h1, h2⟩, h⟩
    rw [h] at h1 h2
    exact ⟨_, (Nat.pow_le_pow_iff_right (by decide)).mp h1, (Nat.pow_le_pow_iff_right (by decide)).mp h2, h⟩
  · rintro ⟨j, h1, h2, h⟩
    rw [log2_of_pow h]
    subst h
    exact ⟨⟨Nat.pow_le_pow_right (by decide) h1, Nat.pow_le_pow_right (by decide) h2⟩, rfl⟩

/-! ## Reserved positions (R212) -/

theorem getLsbD_run (n i off len : Nat) :
    (BitVec.ofNat n ((2 ^ len - 1) * 2 ^ off)).getLsbD i = (decide (i < n) && (decide (off ≤ i) && decide (i < off + len))) := by
  rw [BitVec.getLsbD_ofNat, Nat.testBit_mul_two_pow]
  by_cases h : off ≤ i
  · have : decide (i - off < len) = decide (i < off + len) := by congr 1; simp only [eq_iff_iff]; omega
    simp [h, this]
  · simp [h]

theorem getLsbD_usedBits (n i : Nat) (runs : List (Nat × Nat)) :
    (usedBits n runs).getLsbD i = (decide (i < n) && runs.any fun p => decide (p.1 ≤ i) && decide (i < p.1 + p.2)) := by
  have walk (m : BitVec n) : (runs.foldl (fun m p => m ||| BitVec.ofNat n ((2 ^ p.2 - 1) * 2 ^ p.1)) m).getLsbD i =
      (m.getLsbD i || (decide (i < n) && runs.any fun p => decide (p.1 ≤ i) && decide (i < p.1 + p.2))) := by
    induction runs generalizing m with
    | nil => simp
    | cons p ps ih => rw [List.foldl_cons, ih, BitVec.getLsbD_or, getLsbD_run, List.any_cons, Bool.and_or_distrib_left, Bool.or_assoc]
  unfold usedBits
  rw [walk]
  simp

/-- A record has no bit in the runs exactly when the field at each run is 0. -/
theorem and_usedBits_eq_zero {n : Nat} (r : BitVec n) (runs : List (Nat × Nat)) (hr : ∀ p ∈ runs, p.1 + p.2 ≤ n) :
    r &&& usedBits n runs = 0 ↔ ∀ p ∈ runs, r.extractLsb' p.1 p.2 = 0 := by
  constructor
  · intro h p hp
    apply BitVec.eq_of_getLsbD_eq
    intro i hi
    have hbit : (r &&& usedBits n runs).getLsbD (p.1 + i) = false := by rw [h]; simp
    have hany : (runs.any fun q => decide (q.1 ≤ p.1 + i) && decide (p.1 + i < q.1 + q.2)) = true :=
      List.any_eq_true.mpr ⟨p, hp, by simp; omega⟩
    have hlt : p.1 + i < n := by have := hr p hp; omega
    rw [BitVec.getLsbD_and, getLsbD_usedBits, hany] at hbit
    simpa [hlt, hi] using hbit
  · intro h
    apply BitVec.eq_of_getLsbD_eq
    intro i _
    rw [BitVec.getLsbD_and, getLsbD_usedBits, show (0 : BitVec n).getLsbD i = false by simp]
    by_cases hany : (runs.any fun q => decide (q.1 ≤ i) && decide (i < q.1 + q.2)) = true
    · obtain ⟨p, hp, hin⟩ := List.any_eq_true.mp hany
      simp only [Bool.and_eq_true, decide_eq_true_eq] at hin
      have hbit := congrArg (fun b => b.getLsbD (i - p.1)) (h p hp)
      have hlt : i - p.1 < p.2 := by omega
      have hoff : p.1 + (i - p.1) = i := by omega
      have hzero : r.getLsbD i = false := by simpa [BitVec.getLsbD_extractLsb', hlt, hoff] using hbit
      rw [hzero, Bool.false_and]
    · simp [hany]

/-- Where the runs left over are these, a record's reserved positions are clear exactly when each of them is 0. -/
theorem reservedClear_iff {n : Nat} (r : BitVec n) {runs rest : List (Nat × Nat)} (h : ~~~(usedBits n runs) = usedBits n rest)
    (hr : ∀ p ∈ rest, p.1 + p.2 ≤ n) : reservedClear r runs = true ↔ ∀ p ∈ rest, r.extractLsb' p.1 p.2 = 0 := by
  unfold reservedClear
  rw [h, beq_iff_eq]
  exact and_usedBits_eq_zero r rest hr

/-! ## The common checks of an admin command (R179) -/

/-- The positions behind byte 1 that a command leaves unused (11.2). -/
def unusedParams (r : Record32) : AdminCode → List (Nat × Nat)
  | .configureChannel => [(41, 7), byteRun 10 2]
  | .startChannel => [byteRun 5 27]
  | .pauseChannel => [byteRun 5 27]
  | .abortChannel => [byteRun 6 26]
  | .releaseChannel => [byteRun 5 27]
  | .queryChannel => [byteRun 5 19]
  | .setRegion => [byteRun 22 10]
  | .clearRegion => [byteRun 5 27]
  | .queryRegions => [byteRun 4 20]
  | .setPortMode => [byteRun 6 2, byteRun 24 8]
  | .backplaneReset => [byteRun 6 2, byteRun 12 20]
  | .seedShadow => [byteRun 4 4, byteRun 16 16]
  | .purgeShadow => if AdminRecord.param r 4 1 = 0 then [byteRun 5 3, byteRun 16 16, byteRun 8 8] else [byteRun 5 3, byteRun 16 16]
  | .queryShadow => [byteRun 4 20]
  | .setAttention => [byteRun 7 25]
  | .setSync => [byteRun 5 3, byteRun 12 20]
  | .configureEvents => [byteRun 6 18]

/-- The positions a command uses and those it leaves unused are together the whole record. -/
theorem unusedParams_rest (r : Record32) (k : AdminCode) :
    ~~~(usedBits 256 (byteRun 0 1 :: byteRun 2 2 :: AdminRecord.params r k)) = usedBits 256 (byteRun 1 1 :: unusedParams r k) := by
  cases k with
  | purgeShadow =>
    unfold AdminRecord.params unusedParams
    by_cases h : AdminRecord.param r 4 1 = 0
    · simp only [if_pos h]; decide
    · simp only [if_neg h]; decide
  | _ => simp only [AdminRecord.params, unusedParams]; decide

theorem unusedParams_inside (r : Record32) (k : AdminCode) : ∀ p ∈ byteRun 1 1 :: unusedParams r k, p.1 + p.2 ≤ 256 := by
  cases k with
  | purgeShadow =>
    unfold unusedParams
    by_cases h : AdminRecord.param r 4 1 = 0
    · simp only [if_pos h]; decide
    · simp only [if_neg h]; decide
  | _ => simp only [unusedParams]; decide

theorem reservedOk_iff (r : Record32) (k : AdminCode) : AdminRecord.reservedOk r k = true ↔
    ∀ p ∈ byteRun 1 1 :: unusedParams r k, r.extractLsb' p.1 p.2 = 0 :=
  reservedClear_iff r (unusedParams_rest r k) (unusedParams_inside r k)

theorem rangeOk_iff (r : Record32) (k : AdminCode) : AdminRecord.rangeOk r k = true ↔
    (AdminRecord.snapshotMax k ≠ 0 → (r.extractLsb' 192 64).toNat + AdminRecord.snapshotMax k ≤ 2 ^ 64) := by
  unfold AdminRecord.rangeOk
  rw [Bool.or_eq_true, beq_iff_eq, hostRangeOk_iff]
  exact Decidable.or_iff_not_imp_left

theorem commonOk_iff (r : Record32) (k : AdminCode) : AdminRecord.commonOk r k = true ↔
    r.extractLsb' 8 8 = 0 ∧ (∀ p ∈ unusedParams r k, r.extractLsb' p.1 p.2 = 0) ∧
      (AdminRecord.snapshotMax k ≠ 0 → (r.extractLsb' 192 64).toNat + AdminRecord.snapshotMax k ≤ 2 ^ 64) := by
  unfold AdminRecord.commonOk
  rw [Bool.and_eq_true, reservedOk_iff, rangeOk_iff, List.forall_mem_cons, and_assoc]
  rfl

/-! ## Taking a command (R178, R179) -/

/-- Every admin command's row takes its record under its code. -/
theorem adminCommands_take {rec : Record32} {k : AdminCode} {i : Instr} (h : (k, i) ∈ adminCommands rec) :
    ∃ act, ∀ s, exec i s = .next (takeCommand s rec k act) := by
  simp only [adminCommands, channelCommands, List.cons_append, List.nil_append, List.mem_cons, List.not_mem_nil, or_false,
    Prod.mk.injEq] at h
  rcases h with h | h | h | h | h | h | h | h | h | h | h | h | h | h | h | h | h | h <;>
    (obtain ⟨rfl, rfl⟩ := h; exact ⟨_, fun _ => rfl⟩)

theorem takeUnknown_taken {s : State} {rec : Record32} {a : HostAddr} (h1 : s.admin.progress = .reading a) (h2 : s.ready = true) :
    takeUnknown rec s = answered s rec .unknownCommand ((AdminRecord.code rec).setWidth 32) := by
  unfold takeUnknown
  rw [h1]
  dsimp only
  rw [if_pos h2]
  rfl

/-- Settles O20, by the positions each command leaves unused; and by the branches of a command's taking. -/
theorem commonChecksRefuse : Obligations.CommonChecksRefuse := by
  refine ⟨fun rec k => ?_, fun s rec a h1 h2 => ⟨fun k i hi hk => ?_, ?_⟩⟩
  · rw [commonOk_iff]
    refine and_congr Iff.rfl ?_
    cases k with
    | purgeShadow =>
      have hscope : AdminRecord.param rec 4 1 = 0 ↔ rec.extractLsb' 32 8 = 0 :=
        ⟨fun h => BitVec.eq_of_toNat_eq h, fun h => congrArg BitVec.toNat h⟩
      by_cases h : AdminRecord.param rec 4 1 = 0
      · simp [unusedParams, AdminRecord.snapshotMax, byteRun, h, hscope.mp h]
      · have hne : ¬ rec.extractLsb' 32 8 = 0#8 := mt hscope.mpr h
        simp [unusedParams, AdminRecord.snapshotMax, byteRun, h, hne]
    | _ => simp [unusedParams, AdminRecord.snapshotMax, byteRun]
  · obtain ⟨act, hact⟩ := adminCommands_take hi
    rw [hact, takeCommand_refused act h1 h2 hk]
  · exact congrArg Host.Outcome.next (takeUnknown_taken h1 h2)

/-! ## Commands to a channel (R17) -/

theorem channelCommand_noChannel {s : State} {rec : Record32} {k : AdminCode} {allowed : ChanState → Bool} {inRange : Bool}
    {run : ChanId → State → BitVec 16 → State} (h : Taken s rec k) (hn : 3 < AdminRecord.param rec 4 1) :
    channelCommand rec k allowed inRange run s = answered s rec .invalidField 0 := by
  unfold channelCommand
  rw [takeCommand_taken _ h, indexOf_none hn]
  rfl

section
variable {s : State} {rec : Record32} {k : AdminCode} {c : ChanId} {st : ChanState} {allowed : ChanState → Bool} {inRange : Bool}
  {run : ChanId → State → BitVec 16 → State} (h : Taken s rec k) (hn : Names s rec c st)
include h hn

theorem channelCommand_badState (ha : allowed st = false) : channelCommand rec k allowed inRange run s =
    answered s rec .badState (st.code.setWidth 32) := by
  obtain ⟨hc, rfl⟩ := hn
  unfold channelCommand
  rw [takeCommand_taken _ h, indexOf_val hc]
  simp only [headPast_chan, ha, Bool.not_false, if_true]
  rfl

theorem channelCommand_outOfRange (ha : allowed st = true) (hi : inRange = false) :
    channelCommand rec k allowed inRange run s = answered s rec .invalidField 0 := by
  obtain ⟨hc, rfl⟩ := hn
  unfold channelCommand
  rw [takeCommand_taken _ h, indexOf_val hc]
  simp [ha, hi]
  rfl

end

/-- Every row of a channel command checks the channel's state as the table of section 1.6 gives it. -/
theorem channelCommands_check {rec : Record32} {k : AdminCode} {i : Instr} (h : (k, i) ∈ channelCommands rec) :
    ∃ allowed inRange run, (∀ s, exec i s = .next (channelCommand rec k allowed inRange run s)) ∧
      ∀ st, allowed st = accepts k st := by
  simp only [channelCommands, List.mem_cons, List.not_mem_nil, or_false, Prod.mk.injEq] at h
  rcases h with h | h | h | h | h | h | h <;>
    (obtain ⟨rfl, rfl⟩ := h; exact ⟨_, _, _, fun _ => rfl, fun st => by cases st <;> rfl⟩)

/-- Settles O21, by the checks of R17 in their order. -/
theorem channelCommandsRefuse : Obligations.ChannelCommandsRefuse := by
  intro s rec k i hi ht
  obtain ⟨allowed, inRange, run, hexec, hallowed⟩ := channelCommands_check hi
  refine ⟨fun hc => ?_, fun c st hn ha _ _ => ?_⟩
  · rw [hexec, channelCommand_noChannel ht hc]
  · rw [hexec, channelCommand_badState ht hn ((hallowed st).trans ha)]

/-! ## CONFIGURE_CHANNEL (R18) -/

theorem configureInRange_iff (rec : Record32) : configureInRange rec = true ↔
    (AdminRecord.host rec 16).toNat % 64 = 0 ∧ (AdminRecord.host rec 24).toNat % 64 = 0 ∧
      (∃ j, 2 ≤ j ∧ j ≤ 10 ∧ AdminRecord.param rec 6 2 = 2 ^ j) ∧ (∃ j, 2 ≤ j ∧ j ≤ 10 ∧ AdminRecord.param rec 8 2 = 2 ^ j) ∧
      AdminRecord.param rec 12 4 ≤ 16777215 := by
  unfold configureInRange
  rw [← ringSizeOk_iff, ← ringSizeOk_iff]
  simp only [Bool.and_eq_true, multipleOf_iff, decide_eq_true_eq, and_assoc]
  rfl

/-- Settles O22, by the ranges of R18. -/
theorem configureChannelActs : Obligations.ConfigureChannelActs := by
  intro s rec c ht hn
  have hexec : exec (.configureChannel rec) s =
    .next (channelCommand rec .configureChannel configureAllowed (configureInRange rec) (configure rec) s) := rfl
  refine ⟨fun hg => ?_, fun hb => ?_⟩
  · rw [hexec, channelCommand_runs ht hn rfl ((configureInRange_iff rec).mpr hg)]
    rfl
  · rw [hexec, channelCommand_outOfRange ht hn rfl (by rw [← Bool.not_eq_true]; exact mt (configureInRange_iff rec).mp hb)]

end Sys2Proof.Machine
end

section
/-! PROOF. The admin commands of the Region Table, the Shadow Store, the Sync Unit, the Event Unit and the port's BACKPLANE_RESET: what
each does once taken. -/

namespace Sys2Proof.Machine

open Sys2Proof.Safety

/-! ## The entry a SET_REGION record gives (R95) -/

theorem widthOf_iff (v : Nat) (w : Width) : widthOf v = some w ↔ w.bits = v := by
  unfold widthOf
  split
  · cases w <;> simp [Width.bits]
  · cases w <;> simp [Width.bits]
  · rename_i h8 h16
    cases w
    · simpa [Width.bits] using Ne.symm h8
    · simpa [Width.bits] using Ne.symm h16

theorem rightsOf_code (g : Rights) : rightsOf g.code.toNat = some g := by cases g <;> rfl

theorem readyModeOf_code (m : ReadyMode) : readyModeOf m.code.toNat = some m := by cases m <;> rfl

theorem code_of_rightsOf {v : Nat} {g : Rights} (h : rightsOf v = some g) : g.code.toNat = v := by
  unfold rightsOf at h
  split at h <;> cases h <;> rfl

theorem code_of_readyModeOf {v : Nat} {m : ReadyMode} (h : readyModeOf v = some m) : m.code.toNat = v := by
  unfold readyModeOf at h
  split at h <;> cases h <;> rfl

theorem widthOf_some (v : Nat) : (∃ w, widthOf v = some w) ↔ v = 8 ∨ v = 16 := by
  simp only [widthOf_iff]
  constructor
  · rintro ⟨w, rfl⟩
    cases w <;> simp [Width.bits]
  · rintro (rfl | rfl)
    · exact ⟨.w8, rfl⟩
    · exact ⟨.w16, rfl⟩

theorem rightsOf_some (v : Nat) : (∃ g, rightsOf v = some g) ↔ v ≤ 3 := by
  constructor
  · rintro ⟨g, h⟩
    rw [← code_of_rightsOf h]
    cases g <;> decide
  · intro h
    interval_cases v
    · exact ⟨.readWrite, rfl⟩
    · exact ⟨.readOnly, rfl⟩
    · exact ⟨.writeOnly, rfl⟩
    · exact ⟨.writeOnlyShadowed, rfl⟩

theorem readyModeOf_some (v : Nat) : (∃ m, readyModeOf v = some m) ↔ v ≤ 1 := by
  constructor
  · rintro ⟨m, h⟩
    rw [← code_of_readyModeOf h]
    cases m <;> decide
  · intro h
    interval_cases v
    · exact ⟨.sampled, rfl⟩
    · exact ⟨.fixed, rfl⟩

/-- The numbers of a SET_REGION record are in their ranges (R95). -/
def regionInRange (rec : Record32) : Prop :=
  AdminRecord.param rec 8 4 % 256 = 0 ∧ 1 ≤ AdminRecord.param rec 12 4 ∧
    AdminRecord.param rec 8 4 + 256 * AdminRecord.param rec 12 4 ≤ 0x1000000 ∧ AdminRecord.param rec 16 1 ≤ 7 ∧
    1 ≤ AdminRecord.param rec 17 1 ∧ AdminRecord.param rec 17 1 ≤ 15 ∧ AdminRecord.param rec 18 1 ≤ 7 ∧
    AdminRecord.param rec 19 1 ≤ 3 ∧ 1 ≤ AdminRecord.param rec 20 2 ∧ AdminRecord.param rec 20 2 ≤ 4095

/-- The entry of a record whose codes name these. -/
def regionWith (rec : Record32) (w : Width) (g : Rights) (m : ReadyMode) : Region :=
  { base := BitVec.ofNat 24 (AdminRecord.param rec 8 4), pages := AdminRecord.param rec 12 4, width := w, rights := g,
    setup := AdminRecord.param rec 16 1, strobe := AdminRecord.param rec 17 1, hold := AdminRecord.param rec 18 1,
    readyMode := m, timeout := AdminRecord.param rec 20 2, retries := AdminRecord.param rec 19 1 }

theorem regionOf_iff (rec : Record32) (e : Region) : regionOf rec = some e ↔
    ∃ w g m, widthOf (AdminRecord.param rec 5 1) = some w ∧ rightsOf (AdminRecord.param rec 6 1) = some g ∧
      readyModeOf (AdminRecord.param rec 7 1) = some m ∧ regionInRange rec ∧ e = regionWith rec w g m := by
  unfold regionOf
  split
  · rename_i w g m hw hg hm
    have hrange : (AdminRecord.param rec 8 4 % 256 = 0 ∧ AdminRecord.param rec 8 4 ≤ 0xFFFF00 ∧ 1 ≤ AdminRecord.param rec 12 4 ∧
        AdminRecord.param rec 12 4 ≤ 65536 ∧ AdminRecord.param rec 8 4 + 256 * AdminRecord.param rec 12 4 - 1 ≤ Config.topBusAddr ∧
        AdminRecord.param rec 16 1 ≤ 7 ∧ 1 ≤ AdminRecord.param rec 17 1 ∧ AdminRecord.param rec 17 1 ≤ 15 ∧
        AdminRecord.param rec 18 1 ≤ 7 ∧ AdminRecord.param rec 19 1 ≤ 3 ∧ 1 ≤ AdminRecord.param rec 20 2 ∧
        AdminRecord.param rec 20 2 ≤ 4095) ↔ regionInRange rec := by
      rw [show Config.topBusAddr = 0xFFFFFF from rfl, regionInRange]
      omega
    dsimp only
    by_cases hr : regionInRange rec
    · rw [if_pos (hrange.mpr hr), Option.some.injEq, hw, hg, hm]
      constructor
      · rintro rfl
        exact ⟨w, g, m, rfl, rfl, rfl, hr, rfl⟩
      · rintro ⟨w', g', m', hw', hg', hm', -, rfl⟩
        cases hw'
        cases hg'
        cases hm'
        rfl
    · rw [if_neg (mt hrange.mp hr)]
      exact ⟨fun h => (by cases h), fun ⟨_, _, _, _, _, _, h, _⟩ => absurd h hr⟩
  · rename_i hno
    exact ⟨fun h => (by cases h), fun ⟨w, g, m, hw, hg, hm, _⟩ => absurd hm (hno w g m hw hg)⟩

theorem setRegion_refused {rec : Record32} (s : State) (id : BitVec 16)
    (h : regionOf rec = none ∨ 15 < AdminRecord.param rec 4 1) : setRegion rec s id = adminAnswer s id .invalidField 0 := by
  unfold setRegion
  split
  · rename_i i g hi hg
    rcases h with h | h
    · rw [h] at hg; cases hg
    · rw [indexOf_none h] at hi; cases hi
  · rfl

/-- Settles O31, by the codes a record names and the ranges of its numbers. -/
theorem setRegionFields : Obligations.SetRegionFields := by
  intro rec
  refine ⟨fun e he => ?_, ?_, fun s ht h => ?_⟩
  · obtain ⟨w, g, m, hw, hg, hm, ⟨_, _, htop, _⟩, rfl⟩ := (regionOf_iff rec e).mp he
    refine ⟨?_, rfl, (widthOf_iff _ _).mp hw, code_of_rightsOf hg, code_of_readyModeOf hm, rfl, rfl, rfl, rfl, rfl⟩
    rw [regionWith, BitVec.toNat_ofNat]
    omega
  · rw [← widthOf_some, ← rightsOf_some, ← readyModeOf_some]
    constructor
    · rintro ⟨e, he⟩
      obtain ⟨w, g, m, hw, hg, hm, hr, -⟩ := (regionOf_iff rec e).mp he
      exact ⟨⟨w, hw⟩, ⟨g, hg⟩, ⟨m, hm⟩, hr⟩
    · rintro ⟨⟨w, hw⟩, ⟨g, hg⟩, ⟨m, hm⟩, hr⟩
      exact ⟨_, (regionOf_iff rec _).mpr ⟨w, g, m, hw, hg, hm, hr, rfl⟩⟩
  · exact congrArg Host.Outcome.next ((takeCommand_taken (setRegion rec) ht).trans (setRegion_refused _ _ h))

/-! ## Region changes (R96 to R99) -/

theorem regionBusy_true {s : State} {i : RegionId} {f : InFlight} (hf : s.arb.inflight = some f) (hi : f.index = i) :
    regionBusy s i = true := by
  unfold regionBusy
  rw [hf]
  simpa using hi

/-- A change whose index the access in flight does not name acts at once (R97). -/
theorem changeRegion_acts {s : State} (id : BitVec 16) (ch : RegionChange)
    (h : ∀ f, s.arb.inflight = some f → f.index ≠ ch.index) :
    let table := s.regions.set ch.index ch.entry
    let keep : ShadowEntry → Bool := fun e => shadowedAt table e.addr &&
      !(e.index == ch.index && (match s.region ch.index, ch.entry with
        | some old, some g => old.width != g.width
        | _, _ => false))
    changeRegion s id ch = adminAnswer { s with regions := table, shadow := s.shadow.filter keep, regionWait := none } id .ok
      (BitVec.ofNat 32 (s.shadow.length - (s.shadow.filter keep).length)) := by
  intro table keep
  have hfree : ¬ regionBusy (adminWait s id .region) ch.index = true := by
    intro hbusy
    unfold regionBusy at hbusy
    split at hbusy
    · rename_i f hf
      exact h f hf (by simpa using hbusy)
    · cases hbusy
  unfold changeRegion
  dsimp only
  rw [if_neg hfree, applyRegion_waiting (s := adminWait s id .region) ch rfl]
  exact adminAnswer_setProgressA { s with regions := table, shadow := s.shadow.filter keep, regionWait := none } (.waiting id .region)
    id .ok _

theorem changeRegion_waits {s : State} {f : InFlight} (id : BitVec 16) (ch : RegionChange) (hf : s.arb.inflight = some f)
    (hi : f.index = ch.index) :
    changeRegion s id ch = { s.setProgressA (.waiting id .region) with regionWait := some ch } := by
  have hbusy : regionBusy (adminWait s id .region) ch.index = true := regionBusy_true hf hi
  unfold changeRegion
  dsimp only
  rw [if_pos hbusy]
  rfl

theorem setRegion_fits {s : State} {rec : Record32} {i : RegionId} {g : Region} (id : BitVec 16)
    (hi : AdminRecord.param rec 4 1 = i.val) (hg : regionOf rec = some g)
    (hno : ∀ j h, j ≠ i → s.region j = some h → h.overlaps g = false) :
    setRegion rec s id = changeRegion s id (.set i g) := by
  unfold setRegion
  rw [indexOf_val hi, hg]
  dsimp only
  rw [overlapOf_none.mpr hno]

theorem setRegion_overlaps {s : State} {rec : Record32} {i j : RegionId} {g : Region} (id : BitVec 16)
    (hi : AdminRecord.param rec 4 1 = i.val) (hg : regionOf rec = some g) (ho : overlapOf s.regions i g = some j) :
    setRegion rec s id = adminAnswer s id .overlap (BitVec.ofNat 32 j.val) := by
  unfold setRegion
  rw [indexOf_val hi, hg]
  dsimp only
  rw [ho]

/-- Settles O30, by whether the window overlaps another, and whether the access in flight names the index. -/
theorem setRegionActs : Obligations.SetRegionActs := by
  intro s rec i g ht hi hg table keep
  have hexec : exec (.setRegion rec) s = .next (setRegion rec (headPast s) (AdminRecord.id rec)) :=
    congrArg Host.Outcome.next (takeCommand_taken (setRegion rec) ht)
  refine ⟨fun hno => ⟨fun hfree => ?_, fun f hf he => ?_⟩, fun j h hj hr ho hm => ?_⟩
  · rw [hexec, setRegion_fits (s := headPast s) _ hi hg hno, changeRegion_acts (s := headPast s) _ (.set i g) hfree]
    have hkeep : keep = fun e => shadowedAt table e.addr && !(e.index == i && (match s.region i, some g with
        | some old, some g => old.width != g.width
        | _, _ => false)) := by
      funext e
      simp only [keep]
      cases s.region i <;> rfl
    rw [hkeep]
    rfl
  · rw [hexec, setRegion_fits (s := headPast s) _ hi hg hno, changeRegion_waits (s := headPast s) _ (.set i g) hf he]
  · rw [hexec, setRegion_overlaps (s := headPast s) _ hi hg (overlapOf_some hj hr ho hm)]
    rfl

theorem clearRegion_invalid {s : State} {rec : Record32} {i : RegionId} (id : BitVec 16)
    (hi : AdminRecord.param rec 4 1 = i.val) (hn : s.region i = none) : clearRegion rec s id = adminAnswer s id .ok 0 := by
  simp [clearRegion, indexOf_val hi, hn]

theorem clearRegion_valid {s : State} {rec : Record32} {i : RegionId} {g : Region} (id : BitVec 16)
    (hi : AdminRecord.param rec 4 1 = i.val) (hg : s.region i = some g) : clearRegion rec s id = changeRegion s id (.clear i) := by
  simp [clearRegion, indexOf_val hi, hg]

/-- Settles O32, by the index, the entry there, and whether the access in flight names it. -/
theorem clearRegionActs : Obligations.ClearRegionActs := by
  intro s rec ht
  have hexec : exec (.clearRegion rec) s = .next (clearRegion rec (headPast s) (AdminRecord.id rec)) :=
    congrArg Host.Outcome.next (takeCommand_taken (clearRegion rec) ht)
  refine ⟨fun h => ?_, fun i hi => ?_⟩
  · rw [hexec, clearRegion, indexOf_none h]
    rfl
  intro table keep
  refine ⟨fun hn => ?_, fun g hg => ⟨fun hfree => ?_, fun f hf he => ?_⟩⟩
  · rw [hexec, clearRegion_invalid (s := headPast s) _ hi hn]
    rfl
  · rw [hexec, clearRegion_valid (s := headPast s) _ hi hg, changeRegion_acts (s := headPast s) _ (.clear i) hfree]
    have hkeep : keep = fun e => shadowedAt table e.addr && !(e.index == i && (match s.region i, (none : Option Region) with
        | some old, some g => old.width != g.width
        | _, _ => false)) := by
      funext e
      simp only [keep]
      cases s.region i <;> simp
    rw [hkeep]
    rfl
  · rw [hexec, clearRegion_valid (s := headPast s) _ hi hg, changeRegion_waits (s := headPast s) _ (.clear i) hf he]

/-! ## SEED_SHADOW and PURGE_SHADOW (R142 to R144) -/

theorem seedWindow_none {s : State} {addr value : Nat} (h : 0xFFFFFF < addr ∨ lookup s.regions (BitVec.ofNat 24 addr) = none) :
    seedWindow s addr value = none := by
  unfold seedWindow
  rw [show Config.topBusAddr = 0xFFFFFF from rfl]
  split
  · rw [h.resolve_left (by omega)]
  · rfl

theorem misaligned_false_iff (g : Region) (a : BusAddr) : g.misaligned a = false ↔ (g.width = .w16 → a.toNat % 2 = 0) := by
  unfold Region.misaligned
  cases g.width <;> simp

theorem seedWindow_eq {s : State} {addr value : Nat} {i : RegionId} {g : Region} (ha : addr ≤ 0xFFFFFF) (hv : value ≤ 0xFFFF)
    (hl : lookup s.regions (BitVec.ofNat 24 addr) = some (i, g)) : seedWindow s addr value =
      if g.rights = .writeOnlyShadowed ∧ (g.width = .w16 → (BitVec.ofNat 24 addr).toNat % 2 = 0) ∧
        (g.width = .w8 → (BitVec.ofNat 16 value).toNat ≤ 0xFF) then some i else none := by
  have hvalue : (BitVec.ofNat 16 value).toNat = value := by rw [BitVec.toNat_ofNat]; omega
  unfold seedWindow
  rw [show Config.topBusAddr = 0xFFFFFF from rfl, if_pos ha, hl, hvalue]
  dsimp only
  simp only [misaligned_false_iff, hv, true_and]

theorem seedShadow_refused {s : State} {rec : Record32} (id : BitVec 16)
    (h : seedWindow s (AdminRecord.param rec 8 4) (AdminRecord.param rec 12 4) = none) :
    seedShadow rec s id = adminAnswer s id .invalidField 0 := by
  unfold seedShadow
  dsimp only
  rw [h]

theorem seedShadow_full {s : State} {rec : Record32} {i : RegionId} (id : BitVec 16)
    (h : seedWindow s (AdminRecord.param rec 8 4) (AdminRecord.param rec 12 4) = some i)
    (hf : shadowIsFull s.shadow (BitVec.ofNat 24 (AdminRecord.param rec 8 4)) = true) :
    seedShadow rec s id = adminAnswer s id .noSpace 64 := by
  unfold seedShadow
  dsimp only
  rw [h]
  dsimp only
  rw [if_pos hf]
  rfl

theorem seedShadow_put {s : State} {rec : Record32} {i : RegionId} (id : BitVec 16)
    (h : seedWindow s (AdminRecord.param rec 8 4) (AdminRecord.param rec 12 4) = some i)
    (hf : shadowIsFull s.shadow (BitVec.ofNat 24 (AdminRecord.param rec 8 4)) = false) {es : List ShadowEntry}
    (he : shadowPut s.shadow (BitVec.ofNat 24 (AdminRecord.param rec 8 4)) (BitVec.ofNat 16 (AdminRecord.param rec 12 4)) i = es) :
    seedShadow rec s id = adminAnswer { s with shadow := es } id .ok (BitVec.ofNat 32 es.length) := by
  subst he
  unfold seedShadow
  dsimp only
  rw [h]
  dsimp only
  rw [if_neg (by simp [hf])]

theorem shadowPut_held {es : List ShadowEntry} {a : BusAddr} (v : Value) (i : RegionId) (h : ∃ e ∈ es, e.addr = a) :
    shadowPut es a v i = es.map fun e => if e.addr = a then { e with value := v } else e := by
  unfold shadowPut
  rw [if_pos ((shadowHas_iff es a).mpr h)]

theorem shadowHas_false {es : List ShadowEntry} {a : BusAddr} (h : ∀ e ∈ es, e.addr ≠ a) : shadowHas es a = false := by
  simpa [shadowHas] using h

theorem shadowPut_new {es : List ShadowEntry} {a : BusAddr} (v : Value) (i : RegionId) (h : ∀ e ∈ es, e.addr ≠ a) :
    shadowPut es a v i = es ++ [{ addr := a, value := v, index := i }] := by
  unfold shadowPut
  rw [shadowHas_false h]
  rfl

theorem shadowIsFull_held {es : List ShadowEntry} {a : BusAddr} (h : ∃ e ∈ es, e.addr = a) : shadowIsFull es a = false := by
  simp [shadowIsFull, (shadowHas_iff es a).mpr h]

theorem shadowIsFull_new {es : List ShadowEntry} {a : BusAddr} (h : ∀ e ∈ es, e.addr ≠ a) :
    shadowIsFull es a = true ↔ 64 ≤ es.length := by
  unfold shadowIsFull
  rw [shadowHas_false h, Bool.not_false, Bool.true_and]
  exact decide_eq_true_iff

/-- Settles O36, by the window the address lies in and whether the store holds it. -/
theorem seedShadowActs : Obligations.SeedShadowActs := by
  intro s rec ht a v
  have hexec : exec (.seedShadow rec) s = .next (seedShadow rec (headPast s) (AdminRecord.id rec)) :=
    congrArg Host.Outcome.next (takeCommand_taken (seedShadow rec) ht)
  refine ⟨fun h => ?_, fun i g ha hv hl => ?_⟩
  · rw [hexec, seedShadow_refused _ (seedWindow_none (s := headPast s) h)]
    rfl
  · intro good
    have hwindow := seedWindow_eq (s := headPast s) ha hv hl
    refine ⟨fun hb => ?_, fun hg he => ?_, fun hg he hlen => ?_, fun hg he hlen => ?_⟩
    · rw [hexec, seedShadow_refused _ (hwindow.trans (if_neg hb))]
      rfl
    · rw [hexec, seedShadow_put (s := headPast s) _ (hwindow.trans (if_pos hg)) (shadowIsFull_held he) (shadowPut_held v i he),
        List.length_map]
      rfl
    · have hnot : shadowIsFull s.shadow a = false := by
        rw [← Bool.not_eq_true, shadowIsFull_new he]
        omega
      rw [hexec, seedShadow_put (s := headPast s) _ (hwindow.trans (if_pos hg)) hnot (shadowPut_new v i he), List.length_append]
      rfl
    · rw [hexec, seedShadow_full (s := headPast s) _ (hwindow.trans (if_pos hg)) ((shadowIsFull_new he).mpr hlen)]
      rfl

/-- Settles O37, by the scope. -/
theorem purgeShadowActs : Obligations.PurgeShadowActs := by
  intro s rec ht scope first last kept
  have hexec : exec (.purgeShadow rec) s = .next (purgeShadow rec (headPast s) (AdminRecord.id rec)) :=
    congrArg Host.Outcome.next (takeCommand_taken (purgeShadow rec) ht)
  refine ⟨fun h => ?_, fun h hle htop => ?_, fun h => ?_⟩
  · have hnone : s.shadow.filter (fun _ => false) = [] := by simp
    rw [hexec, purgeShadow, if_pos h]
    unfold purgeWith shadowPurge
    rw [headPast_shadow, hnone]
    rfl
  · have hone : AdminRecord.param rec 4 1 = 1 := h
    have hkept : s.shadow.filter (fun e => !inRange first last e) = kept := by
      refine List.filter_congr fun e _ => ?_
      simp only [inRange, Bool.not_and, ← decide_not, Nat.not_le]
    rw [hexec, purgeShadow, if_neg (by rw [hone]; decide), if_pos ⟨hone, hle, htop⟩]
    unfold purgeWith shadowPurge
    rw [headPast_shadow, hkept]
    rfl
  · have h0 : ¬ AdminRecord.param rec 4 1 = 0 := by omega
    have h1 : ¬ (AdminRecord.param rec 4 1 = 1 ∧ first ≤ last ∧ last ≤ Config.topBusAddr) := by
      rw [show Config.topBusAddr = 0xFFFFFF from rfl]
      omega
    rw [hexec, purgeShadow, if_neg h0, if_neg h1]
    rfl

/-! ## SET_SYNC (R162) and CONFIGURE_EVENTS (R195, R196) -/

theorem examine_headPast (s : State) (k : CounterId) : examine (headPast s) k = headPast (examine s k) := by
  rw [examine_eq, examine_eq]
  rfl

theorem setSync_refused {s : State} {rec : Record32} (id : BitVec 16)
    (h : 7 < AdminRecord.param rec 4 1 ∨ 65535 < AdminRecord.param rec 8 4) : setSync rec s id = adminAnswer s id .invalidField 0 := by
  unfold setSync
  split
  · rename_i k hk
    rcases h with h | h
    · rw [indexOf_none h] at hk; cases hk
    · rw [if_neg (by rw [show Config.syncMax = 65535 from rfl]; omega)]
  · rfl

theorem setSync_set {s : State} {rec : Record32} {k : CounterId} (id : BitVec 16) (hk : AdminRecord.param rec 4 1 = k.val)
    (hv : AdminRecord.param rec 8 4 ≤ 65535) : setSync rec s id = settle (adminAnswer
      (examine (s.setCounter k { s.counter k with value := AdminRecord.param rec 8 4 }) k) id .ok
      (BitVec.ofNat 32 (s.counter k).value)) := by
  unfold setSync
  rw [indexOf_val hk]
  dsimp only
  rw [if_pos (show _ ≤ Config.syncMax from hv)]

/-- Settles O39, by the ranges. -/
theorem setSyncActs : Obligations.SetSyncActs := by
  intro s rec ht
  have hexec : exec (.setSync rec) s = .next (setSync rec (headPast s) (AdminRecord.id rec)) :=
    congrArg Host.Outcome.next (takeCommand_taken (setSync rec) ht)
  refine ⟨fun h => ?_, fun k hk hv => ?_⟩
  · rw [hexec, setSync_refused _ h]
    rfl
  · rw [hexec, setSync_set _ hk hv]
    exact congrArg (fun t => Host.Outcome.next (settle (adminAnswer t _ _ _)))
      (examine_headPast (s.setCounter k { s.counter k with value := AdminRecord.param rec 8 4 }) k)

theorem eventRingOk_iff (size : Nat) (base : HostAddr) : eventRingOk size base = true ↔ (size = 0 ∧ base = 0) ∨
    ((∃ j, 3 ≤ j ∧ j ≤ 10 ∧ size = 2 ^ j) ∧ base.toNat % 64 = 0 ∧ base.toNat + 16 * size ≤ 2 ^ 64) := by
  unfold eventRingOk
  by_cases h : size = 0
  · have hno : ¬ ∃ j, 3 ≤ j ∧ j ≤ 10 ∧ size = 2 ^ j := fun ⟨j, _, _, hj⟩ => absurd (hj.symm.trans h) (by positivity)
    rw [if_pos h, beq_iff_eq]
    simp only [h, true_and] at hno ⊢
    simp only [hno, false_and, or_false]
  · rw [if_neg h, Bool.and_eq_true, Bool.and_eq_true, show ringSizeOk 8 1024 size = true ↔ _ from ringSizeOk_iff 3 10 size, multipleOf_iff, hostRangeOk_iff, and_assoc]
    simp only [h, false_and, false_or]

/-- Settles O41, by the checks of R195. -/
theorem configureEventsActs : Obligations.ConfigureEventsActs := by
  intro s rec ht size base good
  have hexec : exec (.configureEvents rec) s = .next (configureEvents rec (headPast s) (AdminRecord.id rec)) :=
    congrArg Host.Outcome.next (takeCommand_taken (configureEvents rec) ht)
  refine ⟨fun hg => ?_, fun hb => ?_⟩
  · rw [hexec, configureEvents, if_pos ((eventRingOk_iff size base).mpr hg)]
    rfl
  · rw [hexec, configureEvents, if_neg (mt (eventRingOk_iff size base).mp hb)]
    rfl

/-! ## BACKPLANE_RESET (R127, R128) -/

theorem pulseRangesOk_iff (rec : Record32) : pulseRangesOk rec = true ↔
    1 ≤ AdminRecord.param rec 4 2 ∧ AdminRecord.param rec 4 2 ≤ 1000 ∧ AdminRecord.param rec 8 4 ≤ 16777215 := by
  simp only [pulseRangesOk, Bool.and_eq_true, decide_eq_true_eq, and_assoc]
  rfl

/-- A closed port serves nothing, so a happening that released nothing and that nothing waited for ends with it. -/
theorem settle_closed {s : State} (hq : Quiescent s) (hw : NothingWaits s) (hc : portOpen s = false) : settle s = s := by
  rw [settle_serve hq hw, serve_of_none (serveOne_closed hc)]

theorem portOpen_false {s : State} (h : s.own.state ≠ .holding ∨ s.arb.inflight.isSome = true ∨ s.own.brst = true) :
    portOpen s = false := by
  rcases h with h | h | h
  · exact portOpen_of_state h
  · exact portOpen_of_inflight h
  · simp [portOpen, h]

/-- Settles O35, by the ranges, the mode, and what stands at the port. -/
theorem backplaneResetActs : Obligations.BackplaneResetActs := by
  intro s rec ht width good waits
  have hexec : exec (.backplaneReset rec) s = .next (backplaneReset rec (headPast s) (AdminRecord.id rec)) :=
    congrArg Host.Outcome.next (takeCommand_taken (backplaneReset rec) ht)
  have hgood : pulseRangesOk rec = true ↔ good := pulseRangesOk_iff rec
  refine ⟨fun hb => ?_, fun hg hm => ?_, fun hg hm => ?_⟩
  · rw [hexec, backplaneReset, if_pos (by simpa using mt hgood.mp hb)]
    rfl
  · rw [hexec, backplaneReset, if_neg (by simpa using hgood.mpr hg), if_neg (show ¬ (headPast s).own.mode = .master from hm)]
    rfl
  · have hwaits : exec (.backplaneReset rec) s = .next (settle waits) := by
      rw [hexec, backplaneReset, if_neg (by simpa using hgood.mpr hg), if_pos (show (headPast s).own.mode = .master from hm)]
      rfl
    refine ⟨hwaits, fun hq hn => ⟨fun hy hreq => ?_, fun hclosed => ?_⟩⟩
    · rw [hwaits, settle_serve (s := waits) hq hn, serve_startPulse (s := waits) hy (fun h => by cases hreq.symm.trans h.2) rfl]
      rfl
    · rw [hwaits, settle_closed (s := waits) hq hn (portOpen_false hclosed)]

/-! ## Snapshots (R30, R101, R145, 11.4) -/

/-- The channel snapshot, byte by byte (11.4). -/
theorem channelBytes_eq (ch : Channel) :
    let active : Bool := ch.script.any fun sc => sc.tagValid
    let tag : BitVec 16 := if active then (ch.script.elim 0 fun sc => sc.tag) else 0
    let executed : Nat := ch.script.elim 0 fun sc => sc.executed
    let head : Nat := ch.rings.elim 0 fun r => r.sqHead
    let tail : Nat := ch.rings.elim 0 fun r => r.cqTail
    channelBytes ch =
      [ch.st.code, ch.wait.code, (if active then 1 else 0) ||| (if ch.reserved then 2 else 0),
       BitVec.ofNat 8 (ch.script.elim 0 fun sc => sc.links.length), tag.extractLsb' 0 8, tag.extractLsb' 8 8,
       BitVec.ofNat 8 head, BitVec.ofNat 8 (head / 256), BitVec.ofNat 8 tail, BitVec.ofNat 8 (tail / 256), 0, 0,
       BitVec.ofNat 8 executed, BitVec.ofNat 8 (executed / 256), BitVec.ofNat 8 (executed / 65536),
       BitVec.ofNat 8 (executed / 16777216)] := by
  obtain ⟨st, wait, rings, reserved, grantLimit, notifyAll, script, fetch, data, timer, abort⟩ := ch
  cases script with
  | none => cases rings <;> cases reserved <;> simp [channelBytes, leBytes_one, leBytes_two, leBytes_four]
  | some sc =>
    cases hv : sc.tagValid
    · cases rings <;> cases reserved <;> simp [channelBytes, leBytes_one, leBytes_two, leBytes_four, hv]
    · have hlow : BitVec.setWidth 8 sc.tag = sc.tag.extractLsb' 0 8 := BitVec.setWidth_eq_extractLsb' (by decide)
      have hhigh : BitVec.ofNat 8 (sc.tag.toNat / 256) = sc.tag.extractLsb' 8 8 := ofNat_byte sc.tag 8
      cases rings <;> cases reserved <;> simp [channelBytes, leBytes_one, leBytes_two, leBytes_four, hv, hlow, hhigh]

theorem regionBytes_some (g : Region) : regionBytes (some g) =
    [1, BitVec.ofNat 8 g.width.bits, g.rights.code, g.readyMode.code, g.base.extractLsb' 0 8, g.base.extractLsb' 8 8,
     g.base.extractLsb' 16 8, BitVec.ofNat 8 g.retries, BitVec.ofNat 8 g.pages, BitVec.ofNat 8 (g.pages / 256),
     BitVec.ofNat 8 (g.pages / 65536), BitVec.ofNat 8 g.setup, BitVec.ofNat 8 g.strobe, BitVec.ofNat 8 g.hold,
     BitVec.ofNat 8 g.timeout, BitVec.ofNat 8 (g.timeout / 256)] := by
  unfold regionBytes
  dsimp only
  rw [leBytes_word3 g.base]
  simp only [leBytes_one, leBytes_two, leBytes_three]
  rfl

theorem regionBytes_length (o : Option Region) : (regionBytes o).length = 16 := by
  cases o with
  | none => rfl
  | some g => rw [regionBytes_some]; rfl

theorem shadowEntryBytes_eq (e : ShadowEntry) : shadowEntryBytes e =
    [e.addr.extractLsb' 0 8, e.addr.extractLsb' 8 8, e.addr.extractLsb' 16 8, BitVec.ofNat 8 e.index.val,
     e.value.extractLsb' 0 8, e.value.extractLsb' 8 8, 0, 0] := by
  simp only [shadowEntryBytes, leBytes_word2, leBytes_word3, leBytes_one]
  rfl

theorem shadowEntryBytes_length (e : ShadowEntry) : (shadowEntryBytes e).length = 8 := by rw [shadowEntryBytes_eq]; rfl

/-- Where every part has the same length, the parts stand at its multiples. -/
theorem flatMap_part {α β : Type} {f : α → List β} {n : Nat} (h : ∀ x, (f x).length = n) (l : List α) (i : Nat) (x : α)
    (hx : l[i]? = some x) : ((l.flatMap f).drop (n * i)).take n = f x := by
  induction l generalizing i with
  | nil => cases hx
  | cons y l ih =>
    cases i with
    | zero =>
      cases hx
      simpa using List.take_left' (h x)
    | succ i =>
      have hdrop : (f y ++ l.flatMap f).drop (n * (i + 1)) = (l.flatMap f).drop (n * i) := by
        rw [Nat.mul_succ, Nat.add_comm, ← List.drop_drop, List.drop_left' (h y)]
      rw [List.flatMap_cons, hdrop]
      exact ih i hx

theorem flatMap_length {α β : Type} {f : α → List β} {n : Nat} (h : ∀ x, (f x).length = n) (l : List α) :
    (l.flatMap f).length = n * l.length := by
  induction l with
  | nil => rfl
  | cons y l ih => rw [List.flatMap_cons, List.length_append, ih, h, List.length_cons, Nat.mul_succ, Nat.add_comm]

theorem regionsBytes_part (t : Vector (Option Region) 16) (i : RegionId) :
    ((regionsBytes t).drop (16 * i.val)).take 16 = regionBytes t[i] :=
  flatMap_part regionBytes_length t.toList i.val t[i] (by simp)

theorem regionsBytes_length (t : Vector (Option Region) 16) : (regionsBytes t).length = 256 := by
  unfold regionsBytes
  rw [flatMap_length regionBytes_length, Vector.length_toList]

theorem shadowBytes_head (es : List ShadowEntry) : (shadowBytes es).take 16 =
    [BitVec.ofNat 8 es.length, BitVec.ofNat 8 (es.length / 256), 0, 0, 0, 0, 0, 0, 0, 0, 0, 0, 0, 0, 0, 0] := rfl

theorem shadowBytes_entries (es : List ShadowEntry) : (shadowBytes es).drop 16 = es.flatMap shadowEntryBytes := rfl

theorem shadowBytes_length (es : List ShadowEntry) : (shadowBytes es).length = 16 + 8 * es.length := by
  unfold shadowBytes
  rw [List.length_append, flatMap_length shadowEntryBytes_length]
  rfl

theorem shadowBytes_part (es : List ShadowEntry) (k : Nat) (e : ShadowEntry) (h : es[k]? = some e) :
    ((shadowBytes es).drop (16 + 8 * k)).take 8 = shadowEntryBytes e := by
  rw [← List.drop_drop, shadowBytes_entries]
  exact flatMap_part shadowEntryBytes_length es k e h

/-- Settles O29, by the bytes of each snapshot; and by whether the address is a multiple of 16. -/
theorem queriesSnapshot : Obligations.QueriesSnapshot := by
  refine ⟨channelBytes_eq, fun t i => ?_, fun es => ⟨shadowBytes_head es, fun k e h => ?_⟩, fun s rec => ?_⟩
  · rw [regionsBytes_part]
    cases t[i] with
    | none => exact leBytes_zero 16
    | some g =>
      rw [regionBytes_some]
      obtain ⟨base, pages, width, rights, setup, strobe, hold, readyMode, timeout, retries⟩ := g
      cases width <;> rfl
  · rw [shadowBytes_part es k e h, shadowEntryBytes_eq]
  · intro at24 write
    have hchannel : exec (.queryChannel rec) s =
      .next (channelCommand rec .queryChannel queryAllowed (multipleOf at24 16) (query rec) s) := rfl
    have hregions (ht : Taken s rec .queryRegions) : exec (.queryRegions rec) s =
      .next (queryRegions rec (headPast s) (AdminRecord.id rec)) := congrArg Host.Outcome.next (takeCommand_taken _ ht)
    have hshadow (ht : Taken s rec .queryShadow) : exec (.queryShadow rec) s =
      .next (queryShadow rec (headPast s) (AdminRecord.id rec)) := congrArg Host.Outcome.next (takeCommand_taken _ ht)
    refine ⟨fun ha => ?_, fun ha => ?_⟩
    · have hm : multipleOf at24 16 = true := (multipleOf_iff at24 16).mpr ha
      refine ⟨fun c st ht hn => ?_, fun ht => ⟨?_, regionsBytes_length _⟩, fun ht => ⟨?_, shadowBytes_length _⟩⟩
      · rw [hchannel, channelCommand_runs ht hn rfl hm]
        rfl
      · rw [hregions ht, queryRegions, if_pos hm]
        rfl
      · rw [hshadow ht, queryShadow, if_pos hm]
        rfl
    · have hm : ¬ multipleOf at24 16 = true := mt (multipleOf_iff at24 16).mp ha
      refine ⟨fun c st ht hn => ?_, fun ht => ?_, fun ht => ?_⟩
      · rw [hchannel, channelCommand_outOfRange ht hn rfl (by simpa using hm)]
      · rw [hregions ht, queryRegions, if_neg hm]
        rfl
      · rw [hshadow ht, queryShadow, if_neg hm]
        rfl

end Sys2Proof.Machine
end

section
/-! PROOF. The transfers of the admin queue, the register window, the driven lines, and the Event Unit's writes. -/

namespace Sys2Proof.Machine

open Sys2Proof.Safety

/-! ## The transfers of the admin queue (R178 to R182, R185, R207) -/

theorem mayTakeCommand_iff (s : State) : mayTakeCommand s = true ↔ s.ready = true ∧ s.enable = true ∧ s.admin.fault = false ∧
    s.admin.progress = .idle ∧ s.admin.ring.sqHead ≠ s.admin.ring.sqTail ∧
    s.admin.ring.unconsumed + (if s.admin.reserved then 1 else 0) < s.admin.ring.cqSize := by
  simp only [mayTakeCommand, Bool.and_eq_true, Bool.not_eq_true', beq_iff_eq, hasRecord_iff, hasSlot_iff, and_assoc]

theorem commandReadFails_ready {s : State} {a : HostAddr} (h : s.admin.progress = .reading a) (hr : s.ready = true) :
    commandReadFails s = (setAdminFault s).setProgressA .idle := by
  unfold commandReadFails
  rw [h]
  exact if_pos hr

theorem commandReadFails_resetting {s : State} {a : HostAddr} (h : s.admin.progress = .reading a) (hr : s.ready = false) :
    commandReadFails s = s.setProgressA .idle := by
  unfold commandReadFails
  rw [h]
  exact if_neg (by simp [hr])

/-- The record of a command whose read ends during a bridge reset is discarded (R207). -/
theorem takeCommand_resetting {s : State} {rec : Record32} {k : AdminCode} {a : HostAddr} (act : State → BitVec 16 → State)
    (h : s.admin.progress = .reading a) (hr : s.ready = false) : takeCommand s rec k act = s.setProgressA .idle := by
  unfold takeCommand
  rw [h]
  exact if_neg (by simp [hr])

theorem takeUnknown_resetting {s : State} {rec : Record32} {a : HostAddr} (h : s.admin.progress = .reading a)
    (hr : s.ready = false) : takeUnknown rec s = s.setProgressA .idle := by
  unfold takeUnknown
  rw [h]
  exact if_neg (by simp [hr])

section
variable {s : State} {w : HostWrite} (h : s.admin.progress = .completing w)
include h

theorem endAdminWrite_posted (hr : s.ready = true) (hf : s.admin.fault = false) : endAdminWrite s true = postAdmin s := by
  unfold endAdminWrite
  rw [h]
  dsimp only
  rw [if_neg (by simp [hr, hf])]
  rfl

theorem endAdminWrite_failed (hr : s.ready = true) (hf : s.admin.fault = false) :
    endAdminWrite s false = (setAdminFault s).setProgressA .idle := by
  unfold endAdminWrite
  rw [h]
  dsimp only
  rw [if_neg (by simp [hr, hf])]
  rfl

theorem endAdminWrite_discarded (ok : Bool) (hd : s.ready = false ∨ s.admin.fault = true) :
    endAdminWrite s ok = s.setProgressA .idle := by
  unfold endAdminWrite
  rw [h]
  exact if_pos (by simpa using hd)

end

section
variable {s : State} {id : BitVec 16} {d : Detail} {w : HostWrite} (h : s.admin.progress = .snapshot id d w)
include h

theorem endSnapshot_ready (ok : Bool) (hr : s.ready = true) :
    endSnapshot s ok = if ok then adminAnswer s id .ok d else adminAnswer s id .hostFault 0 := by
  unfold endSnapshot
  rw [h]
  exact if_neg (by simp [hr])

theorem endSnapshot_resetting (ok : Bool) (hr : s.ready = false) : endSnapshot s ok = s.setProgressA .idle := by
  unfold endSnapshot
  rw [h]
  exact if_pos (by simp [hr])

end

theorem adminAnswer_faulted {s : State} (id : BitVec 16) (st : AdminStatus) (d : Detail) (h : s.admin.fault = true) :
    adminAnswer s id st d = s.setProgressA .idle := if_pos h

theorem examine_admin (s : State) (k : CounterId) : (examine s k).admin = s.admin := by rw [examine_eq]

/-- Settles O42, by the transfer that ends, its outcome, and whether the bridge is READY. -/
theorem adminTransfersAct : Obligations.AdminTransfersAct := by
  refine ⟨fun s => ?_, fun s a h hr => ?_, fun s w h hr hf => ⟨?_, ?_⟩, fun s ok => ⟨fun a h hr => ⟨?_, fun rec => ⟨?_, ?_⟩⟩, ?_, ?_⟩,
    fun s rec a h hr hf hc hi hv => ?_, fun s id d w h hr => ⟨?_, ?_⟩⟩
  · refine congrArg Host.Outcome.next ?_
    unfold startCommandRead
    by_cases hm : mayTakeCommand s = true
    · rw [if_pos hm, if_pos ((mayTakeCommand_iff s).mp hm)]
      rfl
    · rw [if_neg hm, if_neg (mt (mayTakeCommand_iff s).mpr hm)]
  · exact congrArg Host.Outcome.next (commandReadFails_ready h hr)
  · exact congrArg Host.Outcome.next (endAdminWrite_posted h hr hf)
  · exact congrArg Host.Outcome.next (endAdminWrite_failed h hr hf)
  · exact congrArg Host.Outcome.next (commandReadFails_resetting h hr)
  · exact congrArg Host.Outcome.next (takeUnknown_resetting h hr)
  · intro k i hi
    obtain ⟨act, hact⟩ := adminCommands_take hi
    rw [hact, takeCommand_resetting act h hr]
    rfl
  · exact fun id d w h hr => congrArg Host.Outcome.next (endSnapshot_resetting h ok hr)
  · exact fun w h hd => congrArg Host.Outcome.next (endAdminWrite_discarded h ok hd)
  · have ht : Taken s rec .setSync := ⟨⟨a, h⟩, hr, hc⟩
    refine ⟨_, congrArg Host.Outcome.next ((takeCommand_taken (setSync rec) ht).trans
      (setSync_set (k := ⟨_, Nat.lt_succ_of_le hi⟩) _ rfl hv)), ?_⟩
    rw [adminAnswer_faulted _ _ _ (by rw [examine_admin]; exact hf)]
    unfold State.setProgressA
    dsimp only
    rw [examine_admin]
    rfl
  · exact congrArg Host.Outcome.next (endSnapshot_ready h true hr)
  · exact congrArg Host.Outcome.next (endSnapshot_ready h false hr)

/-! ## Writes of the register window (R199, R202, R204) -/

theorem maskVector_eq (x : IntVector) (m : Bool) : maskVector x m =
    if m then { x with masked := true }
    else if x.waiting then { masked := false, waiting := false, messages := x.messages + 1 } else { x with masked := false } := by
  unfold maskVector
  cases m <;> rfl

theorem baseTaken_iff (s : State) : baseTaken s = true ↔
    s.ready = true ∧ s.enable = false ∧ s.admin.progress = .idle ∧ s.admin.fault = false := by
  simp only [baseTaken, Bool.and_eq_true, Bool.not_eq_true', beq_iff_eq, and_assoc]

/-! ## Reads of the register window (R201, R203 to R205, R215) -/

theorem readRegister_word (s : State) {off : Nat} (h : off % 4 = 0) : readRegister s off 4 = (visibleWord s off).setWidth 64 := by
  unfold readRegister
  rw [if_neg (by simp), if_pos ⟨by simp, h⟩, h, Nat.sub_zero]
  congr 1
  exact BitVec.extractLsb'_eq_self

/-- Every register but STATUS reads 0 while READY is 0. -/
theorem readRegister_shown (s : State) {off : Nat} (h : off % 4 = 0) (hs : off ≠ 4) :
    readRegister s off 4 = if s.ready then (registerWord s off).setWidth 64 else 0 := by
  rw [readRegister_word s h, visibleWord]
  cases s.ready
  · simp [hs]
  · rfl

theorem intrWord_bit (s : State) (i : Fin 64) : ((intrWord s).setWidth 64).getLsbD i.val =
    (List.finRange 6).any fun v : VectorId =>
      i.val == v.val && (s.vector v).masked || i.val == 16 + v.val && (s.vector v).waiting := by
  have bit (b : Bool) (k : Nat) (hk : k < 32) : (if b then BitVec.ofNat 32 (2 ^ k) else 0).getLsbD i.val = (i.val == k && b) := by
    cases b
    · simp
    · rw [if_pos rfl, BitVec.getLsbD_ofNat, Nat.testBit_two_pow, Bool.and_true]
      by_cases he : i.val = k
      · simp [he, hk]
      · have hne : (i.val == k) = false := by simpa using he
        simp [Ne.symm he, hne]
  have walk (l : List VectorId) (w : BitVec 32) : (l.foldl (fun w v =>
      w ||| (if (s.vector v).masked then BitVec.ofNat 32 (2 ^ v.val) else 0) |||
        (if (s.vector v).waiting then BitVec.ofNat 32 (2 ^ (16 + v.val)) else 0)) w).getLsbD i.val = (w.getLsbD i.val ||
      l.any fun v => i.val == v.val && (s.vector v).masked || i.val == 16 + v.val && (s.vector v).waiting) := by
    induction l generalizing w with
    | nil => simp
    | cons v l ih =>
      rw [List.foldl_cons, ih, BitVec.getLsbD_or, BitVec.getLsbD_or, bit _ _ (by omega), bit _ _ (by omega), List.any_cons,
        Bool.or_assoc, Bool.or_assoc, Bool.or_assoc]
  rw [BitVec.getLsbD_setWidth, intrWord, walk]
  simp

theorem registerWord_none (s : State) {off : Nat}
    (h : off ∉ [0x00, 0x04, 0x08, 0x0C, 0x10, 0x20, 0x24, 0x28, 0x2C, 0x30, 0x34]) : registerWord s off = 0 := by
  simp only [List.mem_cons, List.not_mem_nil, or_false, not_or] at h
  obtain ⟨h0, h1, h2, h3, h4, h5, h6, h7, h8, h9, h10⟩ := h
  unfold registerWord
  split <;> first | contradiction | rfl

theorem readRegister_none (s : State) {off : Nat}
    (h : off ∉ [0x00, 0x04, 0x08, 0x0C, 0x10, 0x20, 0x24, 0x28, 0x2C, 0x30, 0x34]) : readRegister s off 4 = 0 := by
  by_cases ha : off % 4 = 0
  · rw [readRegister_shown s ha (by rintro rfl; exact h (by simp)), registerWord_none s h]
    simp
  · unfold readRegister
    rw [if_neg (by simp), if_neg fun hc => ha hc.2]

/-- A narrow read returns the bytes of the word that holds them (R215). -/
theorem readRegister_narrow (s : State) {off size : Nat} (hs : size = 1 ∨ size = 2) (ha : off % size = 0) :
    readRegister s off size =
      ((readRegister s (off - off % 4) 4).extractLsb' (8 * (off % 4)) (8 * size)).setWidth 64 := by
  rw [readRegister_word s (by omega)]
  unfold readRegister
  rw [if_neg (by omega), if_pos ⟨by omega, ha⟩]
  congr 1

theorem readRegister_spanned (s : State) {off size : Nat} (h0 : 0 < size) (h : off % size ≠ 0 ∨ size = 8 ∧ off ≠ 0x08) :
    readRegister s off size = 0 := by
  unfold readRegister
  rw [if_neg (by rintro ⟨rfl, rfl⟩; omega), if_neg (by omega)]

theorem readRegister_status (s : State) : readRegister s 0x04 4 = (if s.ready then 1 else 0) ||| (match s.cause with
        | .powerOn => 0
        | .hostRequest => 0x10
        | .linkReset => 0x20) ||| (if s.admin.fault then 0x100 else 0) ||| (if s.events.fault then 0x200 else 0) := by
  rw [readRegister_word s (by rfl)]
  have hv : visibleWord s 0x04 = statusWord s := by
    unfold visibleWord
    rw [if_pos (by simp)]
    rfl
  rw [hv]
  unfold statusWord
  cases s.ready <;> cases s.cause <;> cases s.admin.fault <;> cases s.events.fault <;> rfl

theorem readRegister_base (s : State) : readRegister s 0x08 8 = if s.ready then s.admin.ring.sqBase else 0 := by
  have halves (a : BitVec 64) : a.extractLsb' 32 32 ++ a.extractLsb' 0 32 = a := by
    apply BitVec.eq_of_getLsbD_eq
    intro i hi
    rw [BitVec.getLsbD_append, BitVec.getLsbD_extractLsb', BitVec.getLsbD_extractLsb']
    by_cases h : i < 32
    · simp [h]
    · have h32 : i - 32 < 32 := by omega
      have hi' : 32 + (i - 32) = i := by omega
      simp [h, h32, hi']
  unfold readRegister visibleWord
  rw [if_pos ⟨rfl, rfl⟩]
  cases s.ready
  · simp
  · exact halves s.admin.ring.sqBase

/-! ## The driven lines (R65, R67, R106) -/

theorem reqDriven_eq (s : State) : reqDriven s = if s.own.mode = .guest then
    some (decide (s.own.state = .holding ∨ s.own.state = .settling ∨ s.own.state = .requesting)) else none := by
  unfold reqDriven
  cases s.own.state <;> rfl

theorem gntDriven_eq (s : State) : gntDriven s = if s.own.mode = .master then some (decide (s.own.state = .granted)) else none := by
  unfold gntDriven
  cases s.own.state <;> rfl

theorem brstDriven_eq (s : State) : brstDriven s = decide (s.own.state = .pulsing) := by
  unfold brstDriven
  cases s.own.state <;> rfl

theorem accessSignals_idle {s : State} (h : s.arb.inflight = none) (ph : Phase) : accessSignals s ph = signalsIdle := by
  unfold accessSignals
  rw [h]

theorem accessSignals_address {s : State} {f : InFlight} (h : s.arb.inflight = some f) :
    accessSignals s .address = signalsAddress f := by
  unfold accessSignals
  rw [h]

theorem accessSignals_data {s : State} {f : InFlight} (h : s.arb.inflight = some f) : accessSignals s .data = signalsData f := by
  unfold accessSignals
  rw [h]

/-- Settles O44, by the register written or read, and by the access in flight for the driven lines. -/
theorem registerWritesAct : Obligations.RegisterWritesAct := by
  refine ⟨fun s off size v => rfl, fun s hr => ⟨fun b => ?_, fun word => ?_, fun he hp hf => ?_, fun hb w => ?_⟩, fun s => ?_, fun s => ?_⟩
  · exact congrArg Host.Outcome.next (if_pos hr)
  · refine congrArg Host.Outcome.next ((if_pos hr).trans ?_)
    simp only [maskVector_eq]
  · have taken (w : BaseWrite) : exec (.adminBase w) s = .next
        { s with admin := { s.admin with ring := adminRings (baseAfter s.admin.ring.sqBase w) } } :=
      congrArg Host.Outcome.next (if_pos ((baseTaken_iff s).mpr ⟨hr, he, hp, hf⟩))
    exact ⟨fun v => taken (.full v), fun v => taken (.low v), fun v => taken (.high v)⟩
  · refine congrArg Host.Outcome.next (if_neg fun hc => ?_)
    obtain ⟨-, he, hp, hf⟩ := (baseTaken_iff s).mp hc
    rcases hb with h | h | h
    · cases he.symm.trans h
    · exact h hp
    · cases hf.symm.trans h
  · intro shown indices
    refine ⟨readRegister_shown s rfl (by decide), readRegister_status s, readRegister_shown s rfl (by decide),
      readRegister_shown s rfl (by decide), readRegister_base s, fun i => ?_, readRegister_shown s rfl (by decide), ?_, fun c => ?_,
      fun off => readRegister_none s, fun off size => readRegister_narrow s, fun off size => readRegister_spanned s⟩
    · rw [readRegister_shown s rfl (by decide)]
      cases s.ready
      · simp
      · exact intrWord_bit s i
    · have hword : registerWord s 0x24 = if s.events.size = 0 then 0 else indices 0 s.events.tail := by
        show indexWord 0 (if s.events.size = 0 then 0 else s.events.tail) = _
        split <;> rfl
      rw [readRegister_shown s rfl (by decide), hword]
    · rw [readRegister_shown s (by omega) (by omega)]
      fin_cases c <;> rfl
  · intro idle
    refine ⟨accessSignals_idle, fun f hf => ⟨accessSignals_address hf, ?_⟩, reqDriven_eq s, gntDriven_eq s, brstDriven_eq s⟩
    exact accessSignals_data hf

/-! ## The Event Unit (R188 to R191, R196 to R198) -/

theorem eventBytes_eq (r : EventRecord) (phase : Bool) : eventBytes r phase =
    [match r.kind with
      | .attention => 1
      | .leaseOverrun => 2
      | .channelFault => 3
      | .brstReset => 4
      | .preempted => 5,
     BitVec.ofNat 8 r.source, BitVec.ofNat 8 r.occurrences, BitVec.ofNat 8 (r.occurrences / 256), if phase then 1 else 0, 0, 0,
     0, r.stamp.extractLsb' 0 8, r.stamp.extractLsb' 8 8, r.stamp.extractLsb' 16 8, r.stamp.extractLsb' 24 8,
     r.detail.extractLsb' 0 8, r.detail.extractLsb' 8 8, r.detail.extractLsb' 16 8, r.detail.extractLsb' 24 8] := by
  unfold eventBytes
  rw [leBytes_word4, leBytes_word4, leBytes_one (phaseBit phase), ofNat_phaseBit]
  obtain ⟨kind, source, occurrences, stamp, detail⟩ := r
  cases kind <;> rfl

theorem endEventWrite_resetting {s : State} {w : EventWrite} (ok : Bool) (h : s.events.write = some w) (hr : s.ready = false) :
    endEventWrite s ok = { s with events := { s.events with write := none } } := by
  unfold endEventWrite
  rw [h]
  exact if_pos (by simp [hr])

theorem endMessage_eq {s : State} {v : VectorId} (ok : Bool) (h : (s.vector v).messages ≠ 0) : endMessage s v ok =
    s.setVector v { s.vector v with
      messages := (s.vector v).messages - 1, waiting := (s.vector v).waiting || (!ok && s.ready) } := if_neg h

theorem holdingRaise_eq (held : List EventRecord) (k : EventKind) (src : Nat) (d : Detail) (now : Time) :
    holdingRaise held k src d now = if ∃ r ∈ held, r.kind = k ∧ r.source = src then
        held.map fun r =>
          if r.kind = k ∧ r.source = src then { r with occurrences := min (r.occurrences + 1) 65535, detail := d } else r
      else held ++ [{ kind := k, source := src, occurrences := 1, stamp := now, detail := d }] := by
  have hiff : (held.any fun r => r.kind == k && r.source == src) = true ↔ ∃ r ∈ held, r.kind = k ∧ r.source = src := by
    simp
  unfold holdingRaise
  by_cases h : ∃ r ∈ held, r.kind = k ∧ r.source = src
  · rw [if_pos (hiff.mpr h), if_pos h]
    rfl
  · rw [if_neg (mt hiff.mp h), if_neg h]

theorem startEventWrite_self {s : State} (h : s.ready = false ∨ s.events.size = 0 ∨ s.events.fault = true ∨
    s.events.write.isSome = true ∨ s.events.size ≤ s.events.unconsumed) : startEventWrite s = s := by
  unfold startEventWrite
  refine if_neg fun hc => ?_
  simp only [Bool.and_eq_true, bne_iff_ne, Bool.not_eq_true', Option.isNone_iff_eq_none, decide_eq_true_eq] at hc
  obtain ⟨⟨⟨⟨hr, hsize⟩, hfault⟩, hwrite⟩, hfree⟩ := hc
  rcases h with h | h | h | h | h
  · cases hr.symm.trans h
  · exact hsize h
  · cases hfault.symm.trans h
  · rw [hwrite] at h; cases h
  · omega

theorem startEventWrite_oldest {s : State} {x : EventRecord} {rest : List EventRecord} (h1 : s.ready = true)
    (h2 : s.events.size ≠ 0) (h3 : s.events.fault = false) (h4 : s.events.write = none)
    (h5 : s.events.unconsumed < s.events.size) (h6 : s.events.holding = x :: rest) :
    startEventWrite s = { s with events := { s.events with
      holding := rest,
      write := some { record := x, stale := false, write :=
        { addr := hostAdd s.events.base (16 * s.events.tail), bytes := eventBytes x s.events.phase } } } } := by
  unfold startEventWrite
  dsimp only
  rw [if_pos (by simp [h1, h2, h3, h4, h5]), h6]

/-- A record returns in front, merged with the one held of its pair (R191). -/
theorem holdingReturn_new {held : List EventRecord} {r : EventRecord}
    (h : ∀ x ∈ held, ¬ (x.kind = r.kind ∧ x.source = r.source)) : holdingReturn held r = r :: held := by
  have hnone : held.find? (fun x => x.kind == r.kind && x.source == r.source) = none := by
    rw [List.find?_eq_none]
    intro x hx
    simpa using h x hx
  unfold holdingReturn
  rw [hnone]

theorem holdingReturn_merged {r x : EventRecord} {front back : List EventRecord} (hk : x.kind = r.kind) (hs : x.source = r.source)
    (h : ∀ y ∈ front ++ back, ¬ (y.kind = r.kind ∧ y.source = r.source)) : holdingReturn (front ++ x :: back) r =
      { r with occurrences := min (r.occurrences + x.occurrences) 65535, detail := x.detail } :: (front ++ back) := by
  have other (y : EventRecord) (hy : y ∈ front ++ back) : (y.kind == r.kind && y.source == r.source) = false := by
    simpa using h y hy
  have hfind : (front ++ x :: back).find? (fun x => x.kind == r.kind && x.source == r.source) = some x := by
    rw [List.find?_append, List.find?_eq_none.mpr fun y hy => by simp [other y (List.mem_append_left _ hy)], Option.none_or,
      List.find?_cons_of_pos (by simp [hk, hs])]
  have hrest : (front ++ x :: back).filter (fun y => !(y.kind == r.kind && y.source == r.source)) = front ++ back := by
    rw [List.filter_append, List.filter_cons_of_neg (by simp [hk, hs]), ← List.filter_append, List.filter_eq_self]
    intro y hy
    rw [other y hy]
    rfl
  unfold holdingReturn
  rw [hfind, hrest]
  rfl

section
variable {s : State} {w : EventWrite} (hr : s.ready = true) (h : s.events.write = some w)
include hr h

theorem endEventWrite_posted (hs : w.stale = false) : endEventWrite s true =
    startEventWrite (askVector { s with events := postEvent { s.events with write := none } } 1) := by
  unfold endEventWrite
  rw [h]
  dsimp only
  rw [if_neg (by simp [hr]), if_neg (by simp [hs])]
  rfl

theorem endEventWrite_failed (hs : w.stale = false) : endEventWrite s false =
    { s with events := { s.events with write := none, holding := holdingReturn s.events.holding w.record, fault := true } } := by
  unfold endEventWrite
  rw [h]
  dsimp only
  rw [if_neg (by simp [hr]), if_neg (by simp [hs])]
  rfl

theorem endEventWrite_stale (ok : Bool) (hs : w.stale = true) : endEventWrite s ok =
    startEventWrite { s with events :=
      if ok then { s.events with write := none } else returnEvent { s.events with write := none } w.record } := by
  unfold endEventWrite
  rw [h]
  dsimp only
  rw [if_neg (by simp [hr]), if_pos hs]

end

/-- Settles O51, by the write or message that ends, whether it failed, and whether its ring has been abandoned. -/
theorem eventWriteAndMessageEnd : Obligations.EventWriteAndMessageEnd := by
  refine ⟨eventBytes_eq, fun s ok hr => ⟨fun hw => ?_, fun v hv => ?_⟩, fun s k src d => ?_, fun s x rest => startEventWrite_oldest,
    fun s w hr h => ?_, fun s v ok hr hv => ?_⟩
  · obtain ⟨w, h⟩ := Option.ne_none_iff_exists'.mp hw
    exact congrArg Host.Outcome.next (endEventWrite_resetting ok h hr)
  · refine congrArg Host.Outcome.next ((endMessage_eq ok hv).trans ?_)
    rw [hr, Bool.and_false, Bool.or_false]
  · intro held
    have hraise : raiseEvent s k src d = startEventWrite held := by
      unfold raiseEvent
      rw [holdingRaise_eq]
    exact ⟨hraise, fun h => hraise.trans (startEventWrite_self h)⟩
  · intro e tail returned
    have hreturned : returned (holdingReturn e.holding w.record) :=
      ⟨fun hno => holdingReturn_new hno, fun x front back he hk hs hno => by rw [he]; exact holdingReturn_merged hk hs hno⟩
    exact ⟨fun hs => congrArg Host.Outcome.next (endEventWrite_posted hr h hs),
      fun hs => ⟨_, hreturned, congrArg Host.Outcome.next (endEventWrite_failed hr h hs)⟩,
      fun hs => congrArg Host.Outcome.next (endEventWrite_stale hr h true hs),
      fun hs => ⟨_, hreturned, congrArg Host.Outcome.next (endEventWrite_stale hr h false hs)⟩⟩
  · refine congrArg Host.Outcome.next ((endMessage_eq ok hv).trans ?_)
    rw [hr, Bool.and_true]

end Sys2Proof.Machine
end

section
/-! PROOF. The steps that turn the script or wait, the actions a step takes, the timers of a channel, and the attention lines. -/

namespace Sys2Proof.Machine

open Sys2Proof.Safety

/-! ## A step carried out (R7, R35) -/

section
variable {s : State} {c : ChanId} {k : StepKind} {st : Step}

theorem takeStep_eq (h : s.step? c = some st) (hk : StepRecord.kind st.bits = some k) :
    takeStep s c = checked s c k (runStep c k) st := by
  unfold takeStep
  rw [h]
  dsimp only
  rw [hk]

theorem started_eq (hr : s.ready = true) (hrun : (s.chan c).st = .running) (h : s.step? c = some st) (hf : st.progress = .fresh)
    (hk : StepRecord.kind st.bits = some k) : started s c k = some st := by
  unfold started
  rw [if_pos ⟨hr, hrun⟩, h]
  exact if_pos ⟨hf, hk⟩

theorem carryOut_eq (hr : s.ready = true) (hrun : (s.chan c).st = .running) (h : s.step? c = some st) (hf : st.progress = .fresh)
    (hk : StepRecord.kind st.bits = some k) (run : State → Step → State) : carryOut s c k run = settle (checked s c k run st) := by
  unfold carryOut
  rw [started_eq hr hrun h hf hk]

/-- A step that passes its check does the same within a delivery and in its own command. -/
theorem ready_does {i : Instr} (h : Ready s c k st) (hi : exec i s = .next (carryOut s c k (runStep c k))) {t : State}
    (ht : runStep c k s st = t) : takeStep s c = t ∧ exec i s = .next (settle t) := by
  obtain ⟨hr, hrun, hst, hf, hk, hok⟩ := h
  have hc : checked s c k (runStep c k) st = t := (if_pos hok).trans ht
  exact ⟨(takeStep_eq hst hk).trans hc, by rw [hi, carryOut_eq hr hrun hst hf hk, hc]⟩

end

/-! ## CALL, END and DELAY (R56 to R58) -/

theorem turnTo_eq {s : State} {c : ChanId} {sc : Script} (h : (s.chan c).script = some sc) (links : List HostAddr) (pos : HostAddr) :
    turnTo s c links pos = s.setChan c { s.chan c with
      fetch := (s.chan c).fetch.map fun f => { f with discard := true },
      script := some { sc with window := [], links := links, listPos := pos } } := by
  unfold turnTo discardFetch
  simp only [modChan_eq, modScript_eq, chan_setChan_self, setChan_setChan, h, Option.map_some]

/-- The lock a step took itself is gone. -/
def stepLockFreed (s : State) (c : ChanId) : State :=
  if s.arb.lock = some (c, .step) then { s with arb := { s.arb with lock := none }, own := { s.own with lockTimer := none } } else s

theorem stepLockFreed_chan (s : State) (c d : ChanId) : (stepLockFreed s c).chan d = s.chan d := by
  unfold stepLockFreed
  split <;> rfl

theorem closeStep_eq {s : State} {c : ChanId} {sc : Script} (h : (s.chan c).script = some sc) :
    closeStep s c = (stepLockFreed s c).setChan c { s.chan c with
      wait := .none, timer := none,
      script := some { sc with
        current := none, executed := if sc.executed < 4294967295 then sc.executed + 1 else sc.executed } } := by
  have hfree : releaseStepLock s c = stepLockFreed s c := rfl
  unfold closeStep
  rw [hfree, modChan_eq, stepLockFreed_chan, h]
  rfl

theorem warnings_isEmpty_iff (w : Warnings) :
    w.isEmpty = true ↔ ¬ (w.shadowFull = true ∨ w.softTimeout = true ∨ w.attnSaturated = true) := by
  simp [Warnings.isEmpty, and_assoc]

theorem endOk_eq {s : State} {c : ChanId} {sc : Script} (h : (s.chan c).script = some sc) : endOk s c = endScript s c
    (if sc.warnings.shadowFull = true ∨ sc.warnings.softTimeout = true ∨ sc.warnings.attnSaturated = true then .okWarn else .ok) 0 0 := by
  unfold endOk
  rw [h]
  dsimp only
  congr 1
  by_cases hw : sc.warnings.isEmpty = true
  · rw [if_pos hw, if_neg ((warnings_isEmpty_iff _).mp hw)]
  · rw [if_neg hw, if_pos (not_not.mp (mt (warnings_isEmpty_iff _).mpr hw))]

section
variable {s : State} {c : ChanId} {sc : Script} (h : (s.chan c).script = some sc) (st : Step)
include h

theorem runCall_room (hl : sc.links.length < 6) : runCall c s st =
    completeStep (turnTo s c (hostAdd st.addr 16 :: sc.links) (StepRecord.hostAddr st.bits)) c := by
  unfold runCall
  rw [h]
  exact if_pos hl

theorem runCall_full (hl : 6 ≤ sc.links.length) : runCall c s st = endScript s c .linkOverflow sc.ordinals 0 := by
  have hord : ordinalOf s c = sc.ordinals := by unfold ordinalOf; rw [h]
  unfold runCall
  rw [h]
  refine (if_neg (Nat.not_lt.mpr hl)).trans ?_
  rw [failStep, hord]

theorem runEnd_pop {pos : HostAddr} {rest : List HostAddr} (hl : sc.links = pos :: rest) :
    runEnd c s st = completeStep (turnTo s c rest pos) c := by
  unfold runEnd
  rw [h]
  dsimp only
  rw [hl]

theorem runEnd_last (hl : sc.links = []) : runEnd c s st = endOk (closeStep s c) c := by
  unfold runEnd
  rw [h]
  dsimp only
  rw [hl]

end

/-- Settles O53, by the kind and the depth of the link stack. -/
theorem turnStepsAct : Obligations.TurnStepsAct := by
  intro s c sc st hin does turned
  obtain ⟨hs, -, -⟩ := hin
  refine ⟨fun hready => ⟨fun hl => ?_, fun hl => ?_⟩, fun hready => ⟨fun pos rest hl => ?_, fun hl => ?_⟩, fun hready => ?_⟩
  · exact ready_does hready rfl ((runCall_room hs st hl).trans (by rw [turnTo_eq hs]))
  · exact ready_does hready rfl (runCall_full hs st hl)
  · exact ready_does hready rfl ((runEnd_pop hs st hl).trans (by rw [turnTo_eq hs]))
  · intro free closed
    have hclosed : (closed.chan c).script = some { sc with
        current := none, executed := if sc.executed < 4294967295 then sc.executed + 1 else sc.executed } := by
      simp only [closed, chan_setChan_self]
    refine ready_does hready rfl ((runEnd_last hs st hl).trans ?_)
    rw [closeStep_eq hs]
    exact (endOk_eq hclosed :)
  · exact ready_does hready rfl rfl

/-! ## SIGNAL, AWAIT and ATTEND (R59, R60, R62) -/

theorem syncSatisfied_iff (k : SyncCounter) (n : Nat) (consume : Bool) : syncSatisfied k n consume = true ↔
    n ≤ k.value ∧ (consume = true → ∀ w ∈ k.waiters, w.consume = false) := by
  unfold syncSatisfied
  cases consume <;> simp

section
variable {s : State} {c : ChanId} {st : Step}

theorem startAwait_met (h : syncSatisfied (s.counter (StepRecord.index st.bits)) (StepRecord.count st.bits)
    (StepRecord.consume st.bits) = true) : startAwait s c st = completeStep (if StepRecord.consume st.bits then
      s.setCounter (StepRecord.index st.bits) { s.counter (StepRecord.index st.bits) with
        value := (s.counter (StepRecord.index st.bits)).value - StepRecord.count st.bits } else s) c := by
  unfold startAwait
  exact if_pos h

theorem startAwait_unmet (h : ¬ syncSatisfied (s.counter (StepRecord.index st.bits)) (StepRecord.count st.bits)
    (StepRecord.consume st.bits) = true) : startAwait s c st = joinSync s c st := by
  unfold startAwait
  exact if_neg h

theorem startAttend_notRouted (h : (s.line (StepRecord.index st.bits)).mode = .off ∨
    (s.line (StepRecord.index st.bits)).route = .event) : startAttend s c st = endScript s c .attnNotRouted (ordinalOf s c) 0 := by
  unfold startAttend
  exact if_pos (by rw [(routed_eq_false_iff _).mpr h]; rfl)

variable (hr : (s.line (StepRecord.index st.bits)).route = .wait)
include hr

theorem startAttend_edge (hm : (s.line (StepRecord.index st.bits)).mode = .edge) : startAttend s c st =
    if (s.line (StepRecord.index st.bits)).count ≠ 0 then completeStep (consumePending s c (StepRecord.index st.bits)) c
    else joinAttn s c st := by
  unfold startAttend
  dsimp only
  rw [if_neg (by simp [AttnLine.routed, hm, hr]), if_pos hm]

theorem startAttend_level (hm : (s.line (StepRecord.index st.bits)).mode = .level) : startAttend s c st =
    if (s.line (StepRecord.index st.bits)).level then completeStep s c else joinAttn s c st := by
  unfold startAttend
  dsimp only
  rw [if_neg (by simp [AttnLine.routed, hm, hr]), if_neg (by simp [hm])]

end

/-- Settles O54, by the kind and by the counter or line it names. -/
theorem syncStepsAct : Obligations.SyncStepsAct := by
  intro s c st does k count timeout fails waits
  refine ⟨fun hready => ⟨fun hv => ?_, fun hv => ?_⟩, fun hready => ?_, fun hready => ?_⟩
  · exact ready_does hready rfl (if_pos hv)
  · exact ready_does hready rfl (if_neg (Nat.not_le.mpr hv))
  · intro consume met
    have hmet : syncSatisfied (s.counter k) count consume = true ↔ met := syncSatisfied_iff _ _ _
    refine ⟨fun hm hc => ?_, fun hm hc => ?_, fun hm => ?_⟩
    · refine ready_does hready rfl ((startAwait_met (hmet.mpr hm)).trans ?_)
      rw [if_neg (by simpa [consume] using hc)]
    · refine ready_does hready rfl ((startAwait_met (hmet.mpr hm)).trans ?_)
      rw [if_pos hc]
    · exact ready_does hready rfl (startAwait_unmet (mt hmet.mp hm))
  · intro l joins
    refine ⟨fun hl => ?_, fun hm hr hcount => ?_, fun hm hr hcount => ?_, fun hm hr hlevel => ?_, fun hm hr hlevel => ?_⟩
    · exact ready_does hready rfl (startAttend_notRouted hl)
    · exact ready_does hready rfl ((startAttend_edge hr hm).trans (if_pos hcount))
    · exact ready_does hready rfl ((startAttend_edge hr hm).trans (if_neg (not_not.mpr hcount)))
    · exact ready_does hready rfl ((startAttend_level hr hm).trans (if_pos hlevel))
    · exact ready_does hready rfl ((startAttend_level hr hm).trans (if_neg (Bool.eq_false_iff.mp hlevel)))

/-! ## The timers of a channel (R49, R58, R61, R63, R81) -/

theorem ordinalOf_congr {s t : State} {c : ChanId} (h : (t.chan c).script = (s.chan c).script) : ordinalOf t c = ordinalOf s c := by
  unfold ordinalOf; rw [h]

theorem lockMark_congr {s t : State} {c : ChanId} (st : Step) (hl : t.arb.lock = s.arb.lock)
    (h : (t.chan c).script = (s.chan c).script) : lockMark t c st = lockMark s c st := by
  unfold lockMark lockHeldBy
  rw [hl, h]

theorem failAccess_step {s : State} {c : ChanId} {st : Step} (e : Status) (h : s.step? c = some st) :
    failAccess s c e = endScript s c e (ordinalOf s c) (match st.progress with
        | .blockIn d _ _ => BitVec.ofNat 32 d
        | .blockOut d _ _ => BitVec.ofNat 32 d
        | _ => (StepRecord.addr st.bits).setWidth 32) := by
  unfold failAccess
  rw [h]
  obtain ⟨addr, bits, progress⟩ := st
  cases progress <;> rfl

theorem present_joins {s : State} (c : ChanId) (st : Step) (p : Purpose) (a : BusAddr) (v : Option Value)
    (hm : s.own.mode ≠ .isolated) : present s c st p a v = joinSet s c (request s c st p a v) := if_neg hm

theorem act_poll {s : State} {c : ChanId} {st : Step} {n : Nat} {v : Value} (h : s.step? c = some st)
    (hp : st.progress = .poll n v) : act s c = present s c st .pollTry (StepRecord.addr st.bits) none := by
  obtain ⟨addr, bits, progress⟩ := st
  dsimp only at hp
  subst hp
  unfold act
  rw [h]

theorem timedStep_eq {s : State} {c : ChanId} {st : Step} (hr : s.ready = true) (hrun : (s.chan c).st = .running)
    (ht : (s.chan c).timer.isSome = true) (h : s.step? c = some st) : timedStep s c = some st :=
  (if_pos ⟨hr, hrun, ht⟩).trans h

theorem leaveCounter_found {s : State} {c : ChanId} {k : CounterId} {w : SyncWaiter}
    (h : (s.counter k).waiters.find? (fun w => w.chan == c) = some w) : leaveCounter c s k =
      if w.consume then
        examine (s.setCounter k { s.counter k with waiters := (s.counter k).waiters.filter fun w => w.chan != c }) k
      else s.setCounter k { s.counter k with waiters := (s.counter k).waiters.filter fun w => w.chan != c } := by
  unfold leaveCounter
  rw [h]

/-- A wait that has timed out fails, or under SOFT completes with a warning. -/
theorem timedOut_eq {s t : State} {c : ChanId} (st : Step) (e : Status) (h : t.chan c = s.chan c) : timedOut t c st e =
    if StepRecord.soft st.bits then completeStep (t.warn c warnSoftTimeout) c else endScript t c e (ordinalOf s c) 0 := by
  unfold timedOut failStep
  rw [ordinalOf_congr (congrArg _ h)]

/-- Settles O57, by the timer. -/
theorem scriptTimersRunOut : Obligations.ScriptTimersRunOut := by
  intro s c st hr hst
  refine ⟨fun r hp hg => ?_, fun hrun htimer => ⟨fun hk => ?_, fun t v hk hp hm => ?_⟩, ?_⟩
  · refine congrArg Host.Outcome.next ?_
    unfold grantWaitRunsOut
    rw [if_pos ⟨hr, by rw [hp]; rfl, hg⟩]
    exact congrArg settle (failAccess_step (s := withdraw s c) .busUnavailable hst)
  · refine congrArg Host.Outcome.next ?_
    unfold delayRunsOut
    rw [timedStep_eq hr hrun htimer hst]
    exact if_pos hk
  · refine congrArg Host.Outcome.next ?_
    have hst' : (stopTimer s c).step? c = some st := by
      rw [step?_def, stopTimer, modChan_eq, chan_setChan_self, ← step?_def]
      exact hst
    have hmark : lockMark (stopTimer s c) c st = lockMark s c st :=
      lockMark_congr st rfl (by rw [stopTimer, modChan_eq, chan_setChan_self])
    unfold intervalRunsOut
    rw [timedStep_eq hr hrun htimer hst]
    refine (if_pos hk).trans (congrArg settle ?_)
    rw [act_poll hst' hp, present_joins (s := stopTimer s c) _ _ _ _ _ hm, request, hmark]
    rfl
  · intro soft n
    refine ⟨fun hp hk w hw ht => ?_, fun hp hk hw => ?_⟩
    · intro left
      have hmem := List.mem_of_find?_eq_some hw
      have hchan := List.find?_some hw
      have hentry : syncEntry s c n = true := List.any_eq_true.mpr ⟨w, hmem, by simp [hchan, ht]⟩
      refine congrArg Host.Outcome.next ?_
      unfold awaitRunsOut
      rw [hst]
      refine (if_pos ⟨hr, hk, hp, hentry⟩).trans (congrArg settle ?_)
      rw [timedOut_eq st .syncTimeout (leaveCounter_chan c s n), leaveCounter_found hw]
    · intro left
      obtain ⟨w, hmem, hchan, ht⟩ := hw
      have hentry : attnEntry s c n = true := List.any_eq_true.mpr ⟨w, hmem, by simp [hchan, ht]⟩
      refine congrArg Host.Outcome.next ?_
      unfold attendRunsOut
      rw [hst]
      refine (if_pos ⟨hr, hk, hp, hentry⟩).trans (congrArg settle ?_)
      exact timedOut_eq st .attnTimeout (leaveLine_chan c c s n)

/-! ## Attention lines (R147 to R150) -/

section
variable {s : State} {n : LineId}

theorem lineAsserted_high (h : (s.line n).level = true) : lineAsserted s n = s := if_pos h

/-- A line that rises outside the initialisation acts by its configuration. -/
theorem lineAsserted_edge (h : (s.line n).level = false) (hr : s.ready = true ∨ s.cause ≠ .powerOn) :
    lineAsserted s n = edgeActs (s.setLine n { s.line n with level := true }) n := by
  have hinit : ¬ s.initialising = true := by
    rw [initialising_iff]
    rintro ⟨h1, h2⟩
    rcases hr with hr | hr
    · cases hr.symm.trans h1
    · exact hr h2
  unfold lineAsserted
  rw [if_neg (by simp [h])]
  exact if_neg hinit

theorem lineAsserted_initialising (h : (s.line n).level = false) (hr : s.ready = false) (hc : s.cause = .powerOn) :
    lineAsserted s n = s.setLine n { s.line n with level := true } := by
  unfold lineAsserted
  rw [if_neg (by simp [h])]
  exact if_pos ((initialising_iff s).mpr ⟨hr, hc⟩)

theorem edgeActs_off (h : (s.line n).mode = .off) : edgeActs s n = s := by
  unfold edgeActs
  rw [h]

theorem edgeActs_event (h : (s.line n).mode = .edge) (hr : (s.line n).route = .event) :
    edgeActs s n = raiseEvent s .attention n.val 0 := by
  unfold edgeActs
  rw [h, hr]

theorem edgeActs_count (h : (s.line n).mode = .edge) (hr : (s.line n).route = .wait) : edgeActs s n = settle (countEdge s n) := by
  unfold edgeActs
  rw [h, hr]

theorem edgeActs_level (h : (s.line n).mode = .level) (hr : (s.line n).route = .wait) :
    edgeActs s n = settle (releaseLine s n) := by
  unfold edgeActs
  rw [h, hr]

theorem countEdge_waiter {w : AttnWaiter} {ws : List AttnWaiter} (h : (s.line n).waiters = w :: ws) : countEdge s n =
    (s.setLine n { s.line n with waiters := ws, saturated := false }).setProgress w.chan (.released (s.line n).saturated) := by
  unfold countEdge
  dsimp only
  rw [h]
  rfl

theorem countEdge_alone (h : (s.line n).waiters = []) : countEdge s n =
    if (s.line n).count < 15 then s.setLine n { s.line n with count := (s.line n).count + 1 }
    else s.setLine n { s.line n with saturated := true } := by
  unfold countEdge
  dsimp only
  rw [h]
  rfl

end

/-- Settles O60, by the level, and the configuration of the line. -/
theorem attentionLinesChange : Obligations.AttentionLinesChange := by
  intro s n l up
  have hup : (s.setLine n up).line n = up := line_setLine_self ..
  refine ⟨rfl, fun h => congrArg Host.Outcome.next (lineAsserted_high h), fun h hoff => ?_, fun h hr => ?_⟩
  · refine congrArg Host.Outcome.next ?_
    by_cases hinit : s.ready = false ∧ s.cause = .powerOn
    · exact lineAsserted_initialising h hinit.1 hinit.2
    · have hr : s.ready = true ∨ s.cause ≠ .powerOn := by
        by_contra hno
        simp only [not_or, Bool.not_eq_true, not_not] at hno
        exact hinit hno
      rw [lineAsserted_edge h hr, edgeActs_off (by rw [hup]; exact hoff.resolve_right hinit)]
  · have hedge : exec (.assertionEdge n) s = .next (edgeActs (s.setLine n up) n) :=
      congrArg Host.Outcome.next (lineAsserted_edge h hr)
    refine ⟨fun hm hroute => ?_, fun hm hroute => ?_, fun hm hroute => ?_⟩
    · rw [hedge, edgeActs_event (by rw [hup]; exact hm) (by rw [hup]; exact hroute)]
    · rw [hedge, edgeActs_count (by rw [hup]; exact hm) (by rw [hup]; exact hroute)]
      refine ⟨fun w ws hw => ?_, fun hw hlt => ?_, fun hw hge => ?_⟩
      · rw [countEdge_waiter (w := w) (ws := ws) (by rw [hup]; exact hw), hup, setLine_setLine]
      · rw [countEdge_alone (by rw [hup]; exact hw), hup, setLine_setLine, if_pos hlt]
      · rw [countEdge_alone (by rw [hup]; exact hw), hup, setLine_setLine, if_neg (Nat.not_lt.mpr hge), setLine_setLine]
    · rw [hedge, edgeActs_level (by rw [hup]; exact hm) (by rw [hup]; exact hroute), releaseLine_eq, hup, setLine_setLine]

end Sys2Proof.Machine
end

section
/-! PROOF. The commands that start, pause, abort and release a channel (R19, R20, R25, R27, R29), and the stop each leads to. -/

namespace Sys2Proof.Machine

open Sys2Proof.Safety

/-! ## Stops (R21, R25, R29) -/

section
variable {s : State} {c : ChanId}

theorem goOn_pausing (h : (s.chan c).st = .pausing) : goOn s c = pauseCheck s c := by unfold goOn; rw [h]

theorem goOn_aborting (h : (s.chan c).st = .aborting) : goOn s c = abortCheck s c := by unfold goOn; rw [h]

theorem goOn_running (h : (s.chan c).st = .running) : goOn s c = startFetch (startNext s c) c := by unfold goOn; rw [h]

theorem quiet_congr {t : State} (hf : t.arb.inflight = s.arb.inflight) (hd : (t.chan c).data = (s.chan c).data)
    (hg : (t.chan c).fetch = (s.chan c).fetch) : quiet t c = quiet s c := by
  unfold quiet State.accessOf
  rw [hf, hd, hg]

theorem quiet_of_access (h : s.accessOf c = true) : quiet s c = false := by simp [quiet, h]

theorem quiet_iff : quiet s c = true ↔ s.accessOf c = false ∧ (s.chan c).data = none ∧ (s.chan c).fetch = none := by
  simp [quiet, and_assoc]

theorem stopWait_access (h : s.accessOf c = true) : stopWait s c = .access := if_pos h

theorem stopWait_data {d : Data} (h : s.accessOf c = false) (hd : (s.chan c).data = some d) : stopWait s c = d.reason := by
  unfold stopWait
  rw [if_neg (by simp [h]), hd]

theorem stopWait_none (h : s.accessOf c = false) (hd : (s.chan c).data = none) :
    stopWait s c = if (s.chan c).fetch.isSome && windowEmpty (s.chan c) then .fetch else .none := by
  unfold stopWait
  rw [if_neg (by simp [h]), hd]

theorem pauseCheck_busy (h : (s.chan c).st = .pausing) (hq : quiet s c = false) :
    pauseCheck s c = s.setWait c (stopWait s c) := by
  unfold pauseCheck
  rw [if_pos h, if_neg (by simp [hq])]

theorem pauseCheck_quiet (h : (s.chan c).st = .pausing) (hq : quiet s c = true) :
    pauseCheck s c = adminDone (s.setChan c { s.chan c with st := .paused, wait := .none }) (.pause c) .ok 0 := by
  unfold pauseCheck
  rw [if_pos h, if_pos hq]
  rfl

theorem abortCheck_busy {sc : Script} (h : (s.chan c).st = .aborting) (hs : (s.chan c).script = some sc)
    (hq : sc.ending ≠ none ∨ quiet s c = false) : abortCheck s c = s.setWait c (stopWait s c) := by
  have hno : ¬ (sc.ending.isNone && quiet s c) = true := by
    rw [Bool.and_eq_true, Option.isNone_iff_eq_none]
    rintro ⟨h1, h2⟩
    rcases hq with hq | hq
    · exact hq h1
    · cases hq.symm.trans h2
  unfold abortCheck
  rw [h, hs]
  exact if_neg hno

theorem abortCheck_quiet {sc : Script} (h : (s.chan c).st = .aborting) (hs : (s.chan c).script = some sc) (he : sc.ending = none)
    (hq : quiet s c = true) : abortCheck s c = endScript s c .aborted (ordinalNow s c) (unitsDone s c) := by
  unfold abortCheck
  rw [h, hs]
  exact if_pos (by rw [he, hq]; rfl)

theorem ordinalNow_congr {t : State} (h : (t.chan c).script = (s.chan c).script) : ordinalNow t c = ordinalNow s c := by
  unfold ordinalNow; rw [h]

theorem unitsDone_congr {t : State} (h : (t.chan c).script = (s.chan c).script) : unitsDone t c = unitsDone s c := by
  unfold unitsDone; rw [step?_def, step?_def, h]

/-! ## A request withdrawn and a wait cut off (R20, R25) -/

theorem cutOff_of_cutOff {t : State} (x : Channel)
    (h : CutOff ((s.setChan c { x with timer := none }).setPresented c none) c t) : cutOff (s.setChan c x) c = t := by
  have hx : (withdraw (s.setChan c x) c).modChan c (fun ch => { ch with timer := none }) =
      (s.setChan c { x with timer := none }).setPresented c none := by
    rw [modChan_eq, withdraw, chan_setPresented, chan_setChan_self]
    exact congrArg (fun t => State.setPresented t c none) (setChan_setChan s c x { x with timer := none })
  unfold cutOff
  rw [hx, leaveLists_of_cutOff h]

/-- A channel on no list that presents nothing has nothing to leave but its timer. -/
theorem cutOff_self (x : Channel) (hn : OnNoList s c) (hp : s.presentedOf c = none) :
    cutOff (s.setChan c x) c = s.setChan c { x with timer := none } := by
  have hp' : (s.setChan c x).presentedOf c = none := by rw [presentedOf_setChan]; exact hp
  unfold cutOff
  rw [withdraw_self hp', modChan_eq, setChan_setChan, chan_setChan_self, leaveLists_self (onNoList_setChan _ hn)]

theorem cutOff_chan (s : State) (c : ChanId) : (cutOff s c).chan c = { s.chan c with timer := none } := by
  unfold cutOff
  rw [leaveLists_chan, modChan_eq, chan_setChan_self]
  rfl

end

/-! ## START_CHANNEL without a script to run (R19) -/

theorem enterIdle_eq {ch : Channel} {r : RingPair} (h : ch.rings = some r) : enterIdle ch = { ch with
    st := .idle,
    wait := if r.sqHead ≠ r.sqTail ∧ r.cqSize ≤ r.unconsumed + (if ch.reserved then 1 else 0) then .completionSpace
      else .none } := by
  have hiff : (r.hasRecord && !r.hasSlot ch.reserved) = true ↔
      r.sqHead ≠ r.sqTail ∧ r.cqSize ≤ r.unconsumed + (if ch.reserved then 1 else 0) := by
    rw [Bool.and_eq_true, hasRecord_iff, Bool.not_eq_true', ← Bool.not_eq_true, hasSlot_iff, Nat.not_lt]
  have hwait : idleWait { ch with st := .idle } =
      if r.sqHead ≠ r.sqTail ∧ r.cqSize ≤ r.unconsumed + (if ch.reserved then 1 else 0) then .completionSpace else .none := by
    unfold idleWait
    dsimp only
    rw [h]
    dsimp only
    by_cases hc : r.sqHead ≠ r.sqTail ∧ r.cqSize ≤ r.unconsumed + (if ch.reserved then 1 else 0)
    · rw [if_pos (hiff.mpr hc), if_pos hc]
    · rw [if_neg (mt hiff.mp hc), if_neg hc]
  unfold enterIdle
  rw [hwait]

theorem start_idle {s : State} {c : ChanId} (id : BitVec 16)
    (h : (s.chan c).st = .stopped ∨ (s.chan c).st = .paused ∧ (s.chan c).script = none) :
    start c s id = adminAnswer (s.setChan c (enterIdle (s.chan c))) id .ok 0 := by
  unfold start
  rcases h with h | ⟨h, hs⟩
  · rw [h]
    rfl
  · rw [h, hs]
    rfl

theorem start_ended {s : State} {c : ChanId} {sc : Script} {e : Ending} (id : BitVec 16) (h : (s.chan c).st = .paused)
    (hs : (s.chan c).script = some sc) (he : sc.ending = some e) : start c s id = s.setProgressA (.waiting id (.start c)) := by
  unfold start
  rw [h, hs]
  exact if_pos (by rw [he]; rfl)

/-- Settles O23, by the state and whether the script's end is fixed. -/
theorem startChannelActs : Obligations.StartChannelActs := by
  intro s rec c r ht hr
  have hexec : exec (.startChannel rec) s = .next (channelCommand rec .startChannel startAllowed true start s) := rfl
  have idles (st : ChanState) (hn : Names s rec c st) (ha : startAllowed st = true)
      (h : (s.chan c).st = .stopped ∨ (s.chan c).st = .paused ∧ (s.chan c).script = none) :
      exec (.startChannel rec) s = .next (answered (s.setChan c (enterIdle (s.chan c))) rec .ok 0) := by
    rw [hexec, channelCommand_runs ht hn ha rfl, start_idle (s := headPast s) _ h]
    rfl
  refine ⟨fun h => ?_, fun sc e hn hs he => ?_⟩
  · rw [← enterIdle_eq hr]
    rcases h with hn | ⟨hn, hs⟩
    · exact idles _ hn rfl (.inl hn.2)
    · exact idles _ hn rfl (.inr ⟨hn.2, hs⟩)
  · rw [hexec, channelCommand_runs ht hn rfl rfl, start_ended (s := headPast s) _ hn.2 hs he]

/-! ## PAUSE_CHANNEL (R20, R21) -/

theorem pause_running {s : State} {c : ChanId} (id : BitVec 16) (h : (s.chan c).st = .running) : pause c s id =
    settle (pauseCheck (cutOff ((s.setProgressA (.waiting id (.pause c))).setChan c { s.chan c with st := .pausing }) c) c) := by
  unfold pause
  rw [h]
  rfl

theorem pause_idle {s : State} {c : ChanId} (id : BitVec 16) (h : (s.chan c).st = .idle) : pause c s id =
    adminAnswer (s.setChan c { s.chan c with st := .paused, wait := .none }) id .ok 0 := by
  unfold pause
  rw [h]
  rfl

theorem pause_paused {s : State} {c : ChanId} (id : BitVec 16) (h : (s.chan c).st = .paused) : pause c s id =
    adminAnswer s id .ok 0 := by
  unfold pause
  rw [h]

/-- The state of a pause in RUNNING: the channel is PAUSING, and its timer has stopped (R20). -/
def pauseStarts (s : State) (c : ChanId) : State := s.setChan c { s.chan c with st := .pausing, timer := none }

section
variable {s : State} {c : ChanId}

theorem pauseStarts_chan (s : State) (c : ChanId) :
    (pauseStarts s c).chan c = { s.chan c with st := .pausing, timer := none } := chan_setChan_self ..

theorem pauseCheck_cut {t : State} (h : CutOff ((pauseStarts s c).setPresented c none) c t) :
    pauseCheck (cutOff (s.setChan c { s.chan c with st := .pausing }) c) c = goOn t c := by
  have hleft := cutOff_of_cutOff { s.chan c with st := .pausing } h
  have hst : (t.chan c).st = .pausing := by rw [← hleft, cutOff_chan, chan_setChan_self]
  rw [hleft, goOn_pausing hst]

variable (hno : OnNoList s c) (hp : s.presentedOf c = none)
include hno hp

theorem pauseCheck_access (ha : s.accessOf c = true) :
    pauseCheck (cutOff (s.setChan c { s.chan c with st := .pausing }) c) c = (pauseStarts s c).setWait c .access := by
  have ha' : (pauseStarts s c).accessOf c = true := ha
  rw [cutOff_self _ hno hp, ← pauseStarts, pauseCheck_busy (by rw [pauseStarts_chan]) (quiet_of_access ha'), stopWait_access ha']

theorem pauseCheck_atOnce (hq : quiet s c = true) {id : BitVec 16} (hw : s.admin.progress = .waiting id (.pause c)) :
    pauseCheck (cutOff (s.setChan c { s.chan c with st := .pausing }) c) c =
      adminAnswer (s.setChan c { s.chan c with st := .paused, wait := .none, timer := none }) id .ok 0 := by
  have hquiet : quiet (pauseStarts s c) c = quiet s c :=
    quiet_congr rfl (by rw [pauseStarts_chan]) (by rw [pauseStarts_chan])
  rw [cutOff_self _ hno hp, ← pauseStarts, pauseCheck_quiet (by rw [pauseStarts_chan]) (hquiet.trans hq), pauseStarts_chan, pauseStarts,
    setChan_setChan, adminDone_waiting (id := id) _ _ (by rw [setChan_admin, hw])]

end

/-- Settles O25, by the state; in RUNNING by the wait cut off and by what is in flight. -/
theorem pauseChannelActs : Obligations.PauseChannelActs := by
  intro s rec c ht stopping
  have hexec : exec (.pauseChannel rec) s = .next (channelCommand rec .pauseChannel pauseAllowed true pause s) := rfl
  refine ⟨fun hn => ?_, fun hn => ?_, fun hn => ?_⟩
  · rw [hexec, channelCommand_runs ht hn rfl rfl, pause_idle (s := headPast s) _ hn.2]
    rfl
  · rw [hexec, channelCommand_runs ht hn rfl rfl, pause_paused (s := headPast s) _ hn.2]
    rfl
  · let w := (headPast s).setProgressA (.waiting (AdminRecord.id rec) (.pause c))
    have hpause : exec (.pauseChannel rec) s =
        .next (settle (pauseCheck (cutOff (w.setChan c { w.chan c with st := .pausing }) c) c)) := by
      rw [hexec, channelCommand_runs ht hn rfl rfl, pause_running (s := headPast s) _ hn.2]
      rfl
    refine ⟨fun t hcut => ?_, fun hno hp => ?_⟩
    · rw [hpause, pauseCheck_cut (s := w) hcut]
    · have hno' : OnNoList w c := onNoList_congr rfl rfl hno
      refine ⟨fun ha => ?_, fun hq => ?_⟩
      · rw [hpause, pauseCheck_access (s := w) hno' hp ha]
        rfl
      · rw [hpause, pauseCheck_atOnce (s := w) hno' hp hq (id := AdminRecord.id rec) rfl]
        have hend : w.setChan c { w.chan c with st := .paused, wait := .none, timer := none } =
            (headPast (s.setChan c { s.chan c with st := .paused, wait := .none, timer := none })).setProgressA
              (.waiting (AdminRecord.id rec) (.pause c)) := rfl
        rw [hend, adminAnswer_setProgressA]
        rfl

/-! ## ABORT_CHANNEL (R25 to R28) -/

section
variable {s : State} {rec : Record32} {c : ChanId} {st : ChanState}

/-- Whichever row carries the record, the mode byte decides (log entry 19). -/
theorem exec_abort (ht : Taken s rec .abortChannel) (hn : Names s rec c st) (ha : accepts .abortChannel st = true)
    (hm : AdminRecord.param rec 5 1 ≤ 1) :
    exec (.abortChannel rec) s = .next (abort rec c (headPast s) (AdminRecord.id rec)) ∧
      exec (.abortChannelFlush rec) s = .next (abort rec c (headPast s) (AdminRecord.id rec)) := by
  have ha' : abortAllowed st = true := by rw [← ha]; cases st <;> rfl
  have hrange : decide (abortMode rec ≤ 1) = true := decide_eq_true hm
  have hruns := channelCommand_runs (run := abort rec) ht hn ha' hrange
  exact ⟨congrArg Host.Outcome.next hruns, congrArg Host.Outcome.next hruns⟩

theorem exec_abort_refused (ht : Taken s rec .abortChannel) (hn : Names s rec c st) (ha : accepts .abortChannel st = true)
    (hm : 1 < AdminRecord.param rec 5 1) :
    exec (.abortChannel rec) s = .next (answered s rec .invalidField 0) ∧
      exec (.abortChannelFlush rec) s = .next (answered s rec .invalidField 0) := by
  have ha' : abortAllowed st = true := by rw [← ha]; cases st <;> rfl
  have hrange : decide (abortMode rec ≤ 1) = false := decide_eq_false (Nat.not_le.mpr hm)
  have hout := channelCommand_outOfRange (run := abort rec) ht hn ha' hrange
  exact ⟨congrArg Host.Outcome.next hout, congrArg Host.Outcome.next hout⟩

end

/-- The state of an abort with an active script: the channel is ABORTING, and its timer has stopped (R25). -/
def abortStarts (s : State) (c : ChanId) (a : Abort) : State :=
  s.setChan c { s.chan c with st := .aborting, timer := none, abort := some a }

theorem abortStarts_chan (s : State) (c : ChanId) (a : Abort) : (abortStarts s c a).chan c =
    { s.chan c with st := .aborting, timer := none, abort := some a } := chan_setChan_self ..

theorem startAbort_eq (s : State) (c : ChanId) (a : Abort) : startAbort s c a =
    settle (abortCheck (cutOff (s.setChan c { s.chan c with st := .aborting, abort := some a }) c) c) := rfl

theorem startAbort_cut {s t : State} {c : ChanId} (a : Abort) (h : CutOff ((abortStarts s c a).setPresented c none) c t) :
    startAbort s c a = settle (goOn t c) := by
  have hleft := cutOff_of_cutOff { s.chan c with st := .aborting, abort := some a } h
  have hst : (t.chan c).st = .aborting := by rw [← hleft, cutOff_chan, chan_setChan_self]
  rw [startAbort_eq, hleft, goOn_aborting hst]

theorem startAbort_alone {s : State} {c : ChanId} (a : Abort) (hno : OnNoList s c) (hp : s.presentedOf c = none) :
    startAbort s c a = settle (abortCheck (abortStarts s c a) c) := by
  rw [startAbort_eq, cutOff_self _ hno hp]
  rfl

section
variable {s : State} {c : ChanId} {sc : Script} (a : Abort) (hs : (s.chan c).script = some sc) (hno : OnNoList s c)
  (hp : s.presentedOf c = none)
include hs hno hp

theorem startAbort_access (ha : s.accessOf c = true) :
    startAbort s c a = settle ((abortStarts s c a).setWait c .access) := by
  have hch := abortStarts_chan s c a
  have ha' : (abortStarts s c a).accessOf c = true := ha
  rw [startAbort_alone a hno hp, abortCheck_busy (sc := sc) (by rw [hch]) (by rw [hch]; exact hs) (.inr (quiet_of_access ha')),
    stopWait_access ha']

theorem startAbort_quiet (he : sc.ending = none) (hq : quiet s c = true) : startAbort s c a =
    settle (endScript (abortStarts s c a) c .aborted (ordinalNow s c) (unitsDone s c)) := by
  have hch := abortStarts_chan s c a
  have hquiet : quiet (abortStarts s c a) c = quiet s c := quiet_congr rfl (by rw [hch]) (by rw [hch])
  rw [startAbort_alone a hno hp, abortCheck_quiet (sc := sc) (by rw [hch]) (by rw [hch]; exact hs) he (hquiet.trans hq),
    ordinalNow_congr (s := s) (by rw [hch]), unitsDone_congr (s := s) (by rw [hch])]

end

section
variable {s : State} {rec : Record32} {c : ChanId}

theorem abortCurrent_unended {sc : Script} (id : BitVec 16) (hs : (s.chan c).script = some sc) (he : sc.ending = none) :
    abortCurrent c s id = startAbort (s.setProgressA (.waiting id (.abort c))) c (.current ((s.chan c).st == .paused)) := by
  unfold abortCurrent
  rw [hs]
  exact if_neg (by simp [he])

theorem abortCurrent_ended {sc : Script} {e : Ending} (id : BitVec 16) (hs : (s.chan c).script = some sc)
    (he : sc.ending = some e) : abortCurrent c s id = s.setProgressA (.waiting id (.abort c)) := by
  unfold abortCurrent
  rw [hs]
  exact if_pos (by simp [he])

theorem abortCurrent_none (id : BitVec 16) (hs : (s.chan c).script = none) : abortCurrent c s id = adminAnswer s id .ok 0 := by
  unfold abortCurrent
  rw [hs]

end

theorem accepts_abort {st : ChanState} (h : st = .idle ∨ st = .stopped ∨ st = .running ∨ st = .paused) :
    accepts .abortChannel st = true := by
  rcases h with rfl | rfl | rfl | rfl <;> rfl

/-- Settles O26, by the mode byte and the script. -/
theorem abortChannelActs : Obligations.AbortChannelActs := by
  intro s rec c st ht hn
  refine ⟨fun hm ha => exec_abort_refused ht hn ha hm, fun hm => ?_⟩
  have hexec (h : st = .idle ∨ st = .stopped ∨ st = .running ∨ st = .paused) : exec (.abortChannel rec) s =
      .next (abortCurrent c (headPast s) (AdminRecord.id rec)) := by
    rw [(exec_abort ht hn (accepts_abort h) (by omega)).1, abort, if_pos (show abortMode rec = 0 from hm)]
  refine ⟨fun hst hun => ?_, fun hst hend => ?_, fun hst hs => ?_⟩
  · intro s'
    obtain ⟨sc, hs, he⟩ := hun
    let w := (headPast s).setProgressA (.waiting (AdminRecord.id rec) (.abort c))
    have hstart : exec (.abortChannel rec) s = .next (startAbort w c (.current (st == .paused))) := by
      rw [hexec (by tauto), abortCurrent_unended (s := headPast s) _ hs he, headPast_chan, hn.2]
    refine ⟨fun t hcut => (by rw [hstart, startAbort_cut (s := w) _ hcut]), fun hno hp => ?_⟩
    have hno' : OnNoList w c := onNoList_congr rfl rfl hno
    refine ⟨fun ha => ?_, fun hq => ?_⟩
    · rw [hstart, startAbort_access (s := w) _ hs hno' hp ha]
      rfl
    · rw [hstart, startAbort_quiet (s := w) _ hs hno' hp he hq]
      rfl
  · obtain ⟨sc, e, hs, he⟩ := hend
    rw [hexec (by tauto), abortCurrent_ended (s := headPast s) _ hs he]
  · rw [hexec (by tauto), abortCurrent_none (s := headPast s) _ hs]
    rfl

section
variable {s : State} {c : ChanId}

theorem abortFlush_unended {sc : Script} {r : RingPair} (id : BitVec 16) (hr : (s.chan c).rings = some r)
    (hs : (s.chan c).script = some sc) (he : sc.ending = none) :
    abortFlush c s id = startAbort (s.setProgressA (.waiting id (.flush c))) c (.flush r.sqTail 0) := by
  have hb : flushBoundary (s.chan c) = r.sqTail := by unfold flushBoundary; rw [hr]
  have hs' : ((adminWait s id (.flush c)).chan c).script = some sc := hs
  unfold abortFlush
  dsimp only
  rw [hs', hb]
  exact if_neg (by simp [he])

theorem abortFlush_ended {sc : Script} {e : Ending} {r : RingPair} (id : BitVec 16) (hr : (s.chan c).rings = some r)
    (hs : (s.chan c).script = some sc) (he : sc.ending = some e) : abortFlush c s id =
      (s.setProgressA (.waiting id (.flush c))).setChan c { s.chan c with abort := some (.flush r.sqTail 0) } := by
  have hb : flushBoundary (s.chan c) = r.sqTail := by unfold flushBoundary; rw [hr]
  have hs' : ((adminWait s id (.flush c)).chan c).script = some sc := hs
  unfold abortFlush
  dsimp only
  rw [hs', hb]
  exact if_pos (by simp [he])

theorem abortFlush_none {r : RingPair} (id : BitVec 16) (hr : (s.chan c).rings = some r) (hs : (s.chan c).script = none) :
    abortFlush c s id = flushOn ((s.setProgressA (.waiting id (.flush c))).setChan c
      { s.chan c with st := .aborting, wait := .none, abort := some (.flush r.sqTail 0) }) c := by
  have hb : flushBoundary (s.chan c) = r.sqTail := by unfold flushBoundary; rw [hr]
  have hs' : ((adminWait s id (.flush c)).chan c).script = none := hs
  unfold abortFlush
  dsimp only
  rw [hs', hb]
  rfl

/-! ## The flush goes on (R27) -/

variable {r : RingPair} {b p : Nat} (hr : (s.chan c).rings = some r) (ha : (s.chan c).abort = some (.flush b p))
include hr ha

theorem flushOn_done (h : r.sqHead = b) : flushOn s c =
    adminDone (s.setChan c { s.chan c with st := .stopped, wait := .none, abort := none }) (.flush c) .ok (BitVec.ofNat 32 p) := by
  unfold flushOn
  dsimp only
  rw [hr, ha]
  exact if_pos h

theorem flushOn_reads (h : r.sqHead ≠ b) (hslot : r.unconsumed + (if (s.chan c).reserved then 1 else 0) < r.cqSize) :
    flushOn s c = s.setChan c { s.chan c with
      reserved := true, data := some (.flushRead (hostAdd r.sqBase (32 * r.sqHead))), wait := .fetch } := by
  unfold flushOn
  dsimp only
  rw [hr, ha]
  exact (if_neg h).trans (if_pos ((hasSlot_iff _ _).mpr hslot))

theorem flushOn_waits (h : r.sqHead ≠ b) (hslot : r.cqSize ≤ r.unconsumed + (if (s.chan c).reserved then 1 else 0)) :
    flushOn s c = s.setWait c (stopWait s c) := by
  unfold flushOn
  dsimp only
  rw [hr, ha]
  exact (if_neg h).trans (if_neg (mt (hasSlot_iff _ _).mp (Nat.not_lt.mpr hslot)))

end

/-- Settles O27, by the script, the boundary and the slots. -/
theorem abortFlushActs : Obligations.AbortFlushActs := by
  intro s rec c st r ht hn hm hr s' ch
  have hexec (h : st = .idle ∨ st = .stopped ∨ st = .running ∨ st = .paused) : exec (.abortChannelFlush rec) s =
      .next (abortFlush c (headPast s) (AdminRecord.id rec)) := by
    have hmode : ¬ abortMode rec = 0 := by rw [abortMode, hm]; decide
    rw [(exec_abort ht hn (accepts_abort h) (by omega)).2, abort, if_neg hmode]
  refine ⟨fun hst hs => ?_, fun hst => ⟨fun hun => ?_, fun hend => ?_⟩⟩
  · have hflush : exec (.abortChannelFlush rec) s = .next (flushOn (s'.setChan c ch) c) := by
      rw [hexec (by tauto), abortFlush_none (s := headPast s) _ hr hs]
      rfl
    have hch : (s'.setChan c ch).chan c = ch := chan_setChan_self ..
    have hr' : ((s'.setChan c ch).chan c).rings = some r := by rw [hch]; exact hr
    have ha' : ((s'.setChan c ch).chan c).abort = some (.flush r.sqTail 0) := by rw [hch]
    refine ⟨fun hb => ?_, fun hb hslot => ?_, fun hb hslot hacc hdata => ?_⟩
    · rw [hflush, flushOn_done hr' ha' hb, hch, setChan_setChan, adminDone_waiting (id := AdminRecord.id rec) _ _ (by rfl)]
      have hend : s'.setChan c { ch with st := .stopped, wait := .none, abort := none } =
          (headPast (s.setChan c { s.chan c with st := .stopped, wait := .none, abort := none })).setProgressA
            (.waiting (AdminRecord.id rec) (.flush c)) := rfl
      rw [hend, adminAnswer_setProgressA]
      rfl
    · rw [hflush, flushOn_reads hr' ha' hb (by rw [hch]; exact hslot), hch, setChan_setChan]
    · have hacc' : (s'.setChan c ch).accessOf c = false := hacc
      have hwindow : windowEmpty ch = true := by
        show (match (s.chan c).script with
          | some sc => sc.window.isEmpty
          | none => true) = true
        rw [hs]
      rw [hflush, flushOn_waits hr' ha' hb (by rw [hch]; exact hslot), stopWait_none hacc' (by rw [hch]; exact hdata), hch, hwindow,
        Bool.and_true, setWait_eq, setChan_setChan, hch]
  · intro t
    obtain ⟨sc, hs, he⟩ := hun
    have hstart : exec (.abortChannelFlush rec) s = .next (startAbort s' c (.flush r.sqTail 0)) := by
      rw [hexec (by tauto), abortFlush_unended (s := headPast s) _ hr hs he]
    refine ⟨fun u hcut => (by rw [hstart, startAbort_cut (s := s') _ hcut]), fun hno hp => ?_⟩
    have hno' : OnNoList s' c := onNoList_congr rfl rfl hno
    refine ⟨fun ha => ?_, fun hq => ?_⟩
    · rw [hstart, startAbort_access (s := s') _ hs hno' hp ha]
      rfl
    · rw [hstart, startAbort_quiet (s := s') _ hs hno' hp he hq]
      rfl
  · obtain ⟨sc, e, hs, he⟩ := hend
    rw [hexec (by tauto), abortFlush_ended (s := headPast s) _ hr hs he]
    rfl

/-! ## RELEASE_CHANNEL (R29) -/

theorem releaseCheck_quiet {s : State} {c : ChanId} {id : BitVec 16} (h : s.admin.progress = .waiting id (.release c))
    (hq : quiet s c = true) : releaseCheck s c = adminAnswer (s.setChan c Channel.reset) id .ok 0 := by
  have hwaits : adminWaitsOn s (.release c) = true := by unfold adminWaitsOn; rw [h]; simp
  unfold releaseCheck
  rw [if_pos (by rw [hwaits, hq]; rfl)]
  exact adminDone_waiting _ _ h

theorem releaseCheck_busy {s : State} {c : ChanId} (hq : quiet s c = false) : releaseCheck s c = s := by
  unfold releaseCheck
  exact if_neg (by simp [hq])

/-- Settles O28, by what is in flight. -/
theorem releaseChannelActs : Obligations.ReleaseChannelActs := by
  intro s rec c ht hn
  have hexec : exec (.releaseChannel rec) s = .next (releaseCheck
      ((headPast s).setProgressA (.waiting (AdminRecord.id rec) (.release c))) c) := by
    have runs (st : ChanState) (hn : Names s rec c st) (ha : releaseAllowed st = true) :=
      channelCommand_runs (run := release) ht hn ha rfl
    rcases hn with hn | hn
    · exact congrArg Host.Outcome.next (runs _ hn rfl)
    · exact congrArg Host.Outcome.next (runs _ hn rfl)
  let w := (headPast s).setProgressA (.waiting (AdminRecord.id rec) (.release c))
  have hw : w.admin.progress = .waiting (AdminRecord.id rec) (.release c) := rfl
  have hquiet : quiet w c = quiet s c := rfl
  refine ⟨fun hq => ?_, fun hq => ?_⟩
  · rw [hexec, releaseCheck_quiet hw (hquiet.trans hq)]
    have hend : ((headPast s).setProgressA (.waiting (AdminRecord.id rec) (.release c))).setChan c Channel.reset =
        (headPast (s.setChan c Channel.reset)).setProgressA (.waiting (AdminRecord.id rec) (.release c)) := rfl
    rw [hend, adminAnswer_setProgressA]
    rfl
  · rw [hexec, releaseCheck_busy (hquiet.trans hq)]

end Sys2Proof.Machine
end

section
/-! PROOF. The action a step takes (chapter 02, R24): presented, served from the Shadow Store, a host transfer, or a wait; and the
resume of a paused script. -/

namespace Sys2Proof.Machine

open Sys2Proof.Safety

/-! ## The current step -/

section
variable {s : State} {c : ChanId} {sc : Script} {st : Step} (hs : (s.chan c).script = some sc) (hc : sc.current = some st)
include hs hc

theorem step?_current : s.step? c = some st := by rw [step?_def, hs, Option.bind_some, hc]

theorem setProgress_current (p : Progress) :
    s.setProgress c p = s.setChan c { s.chan c with script := some { sc with current := some { st with progress := p } } } := by
  rw [setProgress_eq, hs]
  simp only [Option.map_some, hc]

theorem setProgress_script (p : Progress) :
    ((s.setProgress c p).chan c).script = some { sc with current := some { st with progress := p } } := by
  rw [setProgress_current hs hc, chan_setChan_self]

theorem setProgress_step? (p : Progress) : (s.setProgress c p).step? c = some { st with progress := p } :=
  step?_current (setProgress_script hs hc p) rfl

/-- The progress a step has already is no change. -/
theorem setProgress_self {p : Progress} (hp : st.progress = p) : s.setProgress c p = s := by
  have hst : { st with progress := p } = st := by rw [← hp]
  have hsc : { sc with current := some st } = sc := by rw [← hc]
  rw [setProgress_current hs hc, hst, hsc, ← hs, setChan_chan]

omit hc in
theorem lockMark_script (st : Step) : lockMark s c st =
    if lockHeldBy s c then none else if sc.lockBus then some .script else if stepMark st then some .step else none := by
  unfold lockMark
  rw [hs]

/-- A request of the step at another progress is the one it would present now. -/
theorem request_setProgress (p : Progress) (st' : Step) (pu : Purpose) (a : BusAddr) (v : Option Value) :
    request (s.setProgress c p) c st' pu a v = request s c st' pu a v := by
  unfold request
  rw [lockMark_script (setProgress_script hs hc p), lockMark_script hs]
  rfl

/-- A presentation joins the set, or fails at once in ISOLATED mode (R36, R79). -/
theorem present_at {p : Progress} (hp : st.progress = p) (pu : Purpose) (a : BusAddr) (v : Option Value) :
    present s c st pu a v = if s.own.mode = .isolated then
        endScript s c .portIsolated sc.ordinals (accessDetail { st with progress := p })
      else joinSet s c (request s c { st with progress := p } pu a v) := by
  subst hp
  have hord : ordinalOf s c = sc.ordinals := by unfold ordinalOf; rw [hs]
  have hfail : failAccess s c .portIsolated = endScript s c .portIsolated sc.ordinals (accessDetail st) := by
    unfold failAccess
    rw [step?_current hs hc]
    dsimp only
    rw [failStep, hord]
  unfold present
  rw [hfail]
  rfl

/-- The step presents at the progress it takes. -/
theorem present_after (p : Progress) (pu : Purpose) (a : BusAddr) (v : Option Value) :
    present (s.setProgress c p) c { st with progress := p } pu a v = if s.own.mode = .isolated then
        endScript (s.setProgress c p) c .portIsolated sc.ordinals (accessDetail { st with progress := p })
      else joinSet (s.setProgress c p) c (request s c { st with progress := p } pu a v) := by
  rw [present_at (setProgress_script hs hc p) rfl rfl, request_setProgress hs hc]
  rfl

end

/-! ## How a read is made (R38) -/

section
variable {s : State} {a : BusAddr}

theorem divert_presented (h : ∀ i g, lookup s.regions a = some (i, g) → g.rights ≠ .writeOnlyShadowed) : divert s a = .presented := by
  unfold divert
  split
  · rename_i i g hl
    exact if_neg (h i g hl)
  · rfl

variable {i : RegionId} {g : Region} (hl : lookup s.regions a = some (i, g)) (hg : g.rights = .writeOnlyShadowed)
include hl hg

theorem divert_misaligned (hw : g.width = .w16) (ho : a.toNat % 2 = 1) : divert s a = .failed .misaligned := by
  unfold divert
  rw [hl]
  dsimp only
  rw [if_pos hg, if_pos ((misaligned_iff g a).mpr ⟨hw, ho⟩)]

variable (ha : g.width = .w8 ∨ a.toNat % 2 = 0)
include ha

theorem divert_aligned : divert s a = match shadowFind s.shadow a with
    | some e => .served (g.narrow e.value)
    | none => .failed .shadowMiss := by
  have hno : ¬ g.misaligned a = true := by
    rw [misaligned_iff]
    rintro ⟨hw, ho⟩
    rcases ha with h | h
    · rw [h] at hw; cases hw
    · omega
  unfold divert
  rw [hl]
  dsimp only
  rw [if_pos hg, if_neg hno] <;> rfl

theorem divert_miss (he : ∀ e ∈ s.shadow, e.addr ≠ a) : divert s a = .failed .shadowMiss := by
  have hn : shadowFind s.shadow a = none := by simpa [shadowFind] using he
  rw [divert_aligned hl hg ha, hn]

theorem divert_served {e : ShadowEntry} (he : s.shadow.find? (fun x => x.addr == a) = some e) :
    divert s a = .served (if g.width = .w8 then e.value &&& 0xFF else e.value) := by
  have hn : shadowFind s.shadow a = some e := he
  rw [divert_aligned hl hg ha, hn, ← narrow_eq]

end

/-! ## The action of each progress -/

section
variable {s : State} {c : ChanId} {st : Step} (h : s.step? c = some st)
include h

theorem act_of_fresh (hp : st.progress = .fresh) : act s c = s := by
  obtain ⟨addr, bits, progress⟩ := st
  cases hp
  unfold act
  rw [h]

theorem act_of_write (hp : st.progress = .write) :
    act s c = present s c st .write (StepRecord.addr st.bits) (some (StepRecord.value st.bits)) := by
  obtain ⟨addr, bits, progress⟩ := st
  cases hp
  unfold act
  rw [h]

theorem act_of_readValue {v : Value} (hp : st.progress = .readValue v) :
    act s c = startData s c (.readWrite { addr := StepRecord.hostAddr st.bits, bytes := slotBytes v }) := by
  obtain ⟨addr, bits, progress⟩ := st
  cases hp
  unfold act
  rw [h]

theorem act_of_modWrite {kept : Option Value} {b : Bool} (hp : st.progress = .modWrite kept b) :
    act s c = present s c st .modifyWrite (StepRecord.addr st.bits) (kept.map (modified st.bits)) := by
  obtain ⟨addr, bits, progress⟩ := st
  cases hp
  unfold act
  rw [h]
  rfl

theorem act_of_blockIn_value {d next : Nat} {v : Value} (hp : st.progress = .blockIn d next (some v)) :
    act s c = startData s c (.slotWrite { addr := hostAdd (StepRecord.hostAddr st.bits) (2 * d), bytes := slotBytes v }) := by
  obtain ⟨addr, bits, progress⟩ := st
  cases hp
  unfold act
  rw [h]
  rfl

theorem act_of_blockOut_value {d next : Nat} {v : Value} (hp : st.progress = .blockOut d next (some v)) :
    act s c = present s c st .blockOut (BitVec.ofNat 24 next) (some v) := by
  obtain ⟨addr, bits, progress⟩ := st
  cases hp
  unfold act
  rw [h]

theorem act_of_blockIn {d next : Nat} (hp : st.progress = .blockIn d next none) : act s c =
    if next ≤ 0xFFFFFF then present s c st .blockIn (BitVec.ofNat 24 next) none
    else endScript s c .regionMiss (ordinalOf s c) (BitVec.ofNat 32 d) := by
  obtain ⟨addr, bits, progress⟩ := st
  cases hp
  unfold act
  rw [h]
  rfl

theorem act_of_blockOut {d next : Nat} (hp : st.progress = .blockOut d next none) : act s c =
    if next ≤ 0xFFFFFF then startData s c (.slotRead (hostAdd (StepRecord.hostAddr st.bits) (2 * d)))
    else endScript s c .regionMiss (ordinalOf s c) (BitVec.ofNat 32 d) := by
  obtain ⟨addr, bits, progress⟩ := st
  cases hp
  unfold act
  rw [h]
  rfl

section
variable (hp : st.progress = .read)
include hp

theorem act_of_read_presented (hd : divert s (StepRecord.addr st.bits) = .presented) :
    act s c = present s c st .read (StepRecord.addr st.bits) none := by
  obtain ⟨addr, bits, progress⟩ := st
  cases hp
  unfold act
  rw [h]
  dsimp only
  rw [hd]

theorem act_of_read_failed {e : Status} (hd : divert s (StepRecord.addr st.bits) = .failed e) : act s c = failAccess s c e := by
  obtain ⟨addr, bits, progress⟩ := st
  cases hp
  unfold act
  rw [h]
  dsimp only
  rw [hd]

theorem act_of_read_served {v : Value} (hd : divert s (StepRecord.addr st.bits) = .served v) :
    act s c = startData (s.setProgress c (.readValue v)) c
      (.readWrite { addr := StepRecord.hostAddr st.bits, bytes := slotBytes v }) := by
  obtain ⟨addr, bits, progress⟩ := st
  cases hp
  unfold act
  rw [h]
  dsimp only
  rw [hd]

end

section
variable (hp : st.progress = .modRead)
include hp

theorem act_of_modRead_presented (hd : divert s (StepRecord.addr st.bits) = .presented) :
    act s c = present s c st .modifyRead (StepRecord.addr st.bits) none := by
  obtain ⟨addr, bits, progress⟩ := st
  cases hp
  unfold act
  rw [h]
  dsimp only
  rw [hd]

theorem act_of_modRead_failed {e : Status} (hd : divert s (StepRecord.addr st.bits) = .failed e) : act s c = failAccess s c e := by
  obtain ⟨addr, bits, progress⟩ := st
  cases hp
  unfold act
  rw [h]
  dsimp only
  rw [hd]

theorem act_of_modRead_served {v : Value} (hd : divert s (StepRecord.addr st.bits) = .served v) :
    act s c = present (s.setProgress c (.modWrite none false)) c { st with progress := .modWrite none false } .modifyWrite
      (StepRecord.addr st.bits) none := by
  obtain ⟨addr, bits, progress⟩ := st
  cases hp
  unfold act
  rw [h]
  dsimp only
  rw [hd]
  rfl

end

section
variable (hp : st.progress = .waiting)
include hp

theorem act_of_delay (hk : StepRecord.kind st.bits = some .delay) : act s c = startDelay s c st := by
  obtain ⟨addr, bits, progress⟩ := st
  cases hp
  unfold act
  rw [h]
  dsimp only at hk ⊢
  rw [hk]

theorem act_of_await (hk : StepRecord.kind st.bits = some .await) : act s c = startAwait s c st := by
  obtain ⟨addr, bits, progress⟩ := st
  cases hp
  unfold act
  rw [h]
  dsimp only at hk ⊢
  rw [hk]

theorem act_of_attend (hk : StepRecord.kind st.bits = some .attend) : act s c = startAttend s c st := by
  obtain ⟨addr, bits, progress⟩ := st
  cases hp
  unfold act
  rw [h]
  dsimp only at hk ⊢
  rw [hk]

end

end

end Sys2Proof.Machine
end

section
/-! PROOF. START_CHANNEL resumes a paused script (R24), and what the current step then does. -/

namespace Sys2Proof.Machine

open Sys2Proof.Safety

/-! ## The resume -/

theorem start_resumes {s : State} {c : ChanId} {sc : Script} (id : BitVec 16) (h : (s.chan c).st = .paused)
    (hs : (s.chan c).script = some sc) (he : sc.ending = none) : start c s id = settle (adminAnswer (resume s c) id .ok 0) := by
  unfold start
  rw [h, hs]
  exact if_neg (by rw [he]; simp)

/-- The channel as it resumes: RUNNING, with no wait reason. -/
def resumed (s : State) (c : ChanId) : State := s.setChan c { s.chan c with st := .running, wait := .none }

section
variable {s : State} {c : ChanId} {sc : Script} (hs : (s.chan c).script = some sc)
include hs

theorem resumed_script : ((resumed s c).chan c).script = some sc := by
  rw [resumed, chan_setChan_self]
  exact hs

theorem resume_between (hc : sc.current = none) : resume s c = startFetch (startNext (resumed s c) c) c := by
  have h : (resumed s c).step? c = none := by rw [step?_def, resumed_script hs, Option.bind_some, hc]
  unfold resume
  rw [show (s.modChan c fun ch => { ch with st := .running, wait := .none }) = resumed s c from rfl]
  dsimp only
  rw [h]

theorem resume_inside {st : Step} (hc : sc.current = some st) : resume s c = startFetch (resumeStep (resumed s c) c st) c := by
  unfold resume
  rw [show (s.modChan c fun ch => { ch with st := .running, wait := .none }) = resumed s c from rfl]
  dsimp only
  rw [step?_current (resumed_script hs) hc]

end

theorem resumeStep_poll {s : State} {c : ChanId} {st : Step} {n : Nat} {v : Value} (hp : st.progress = .poll n v) :
    resumeStep s c st = act (s.setProgress c (.poll (StepRecord.tries st.bits) 0)) c := by
  unfold resumeStep
  rw [hp]

theorem resumeStep_act {s : State} {c : ChanId} {st : Step} (hp : ∀ n v, st.progress ≠ .poll n v) :
    resumeStep s c st = act s c := by
  unfold resumeStep
  split
  · rename_i n v h
    exact absurd h (hp n v)
  · rfl

theorem startNext_empty {s : State} {c : ChanId} {sc : Script} (hs : (s.chan c).script = some sc) (hk : sc.checked = true)
    (he : sc.ending = none) (hc : sc.current = none) (hw : sc.window = []) : startNext s c = s.setWait c .fetch := by
  unfold startNext
  rw [hs]
  dsimp only
  rw [if_neg (by rw [hk, he, hc]; simp), hw]

theorem mayFetch_empty {ch : Channel} {sc : Script} (hst : ch.st = .running) (hk : sc.checked = true) (he : sc.ending = none)
    (hc : sc.current = none) (hw : sc.window = []) (hf : ch.fetch = none) : mayFetch ch sc = true := by
  simp [mayFetch, hst, hk, he, hc, hw, hf, freshTurn, Config.windowSize]

theorem startFetch_fetches {s : State} {c : ChanId} {sc : Script} (hs : (s.chan c).script = some sc)
    (hm : mayFetch (s.chan c) sc = true) : startFetch s c = s.setChan c { s.chan c with
      fetch := some { addr := sc.listPos, count := 4 - sc.window.length, discard := false } } := by
  unfold startFetch
  rw [hs]
  exact if_pos hm

/-- Between steps, the window empty and no fetch in flight, four records are fetched. -/
theorem resume_empty {s : State} {c : ChanId} {sc : Script} (hs : (s.chan c).script = some sc) (hk : sc.checked = true)
    (he : sc.ending = none) (hc : sc.current = none) (hw : sc.window = []) (hf : (s.chan c).fetch = none) :
    resume s c = s.setChan c { s.chan c with
      st := .running, wait := .fetch, fetch := some { addr := sc.listPos, count := 4, discard := false } } := by
  have hnext : startNext (resumed s c) c = s.setChan c { s.chan c with st := .running, wait := .fetch } := by
    rw [startNext_empty (resumed_script hs) hk he hc hw, resumed, setWait_eq, chan_setChan_self, setChan_setChan]
  have hfetch := startFetch_fetches (s := s.setChan c { s.chan c with st := .running, wait := .fetch }) (c := c) (sc := sc)
    (by rw [chan_setChan_self]; exact hs) (mayFetch_empty (by rw [chan_setChan_self]) hk he hc hw (by rw [chan_setChan_self]; exact hf))
  rw [resume_between hs hc, hnext, hfetch, chan_setChan_self, setChan_setChan, hw]
  rfl

/-! ## The action of the current step -/

theorem slotBytes_eq (v : Value) : slotBytes v = [v.extractLsb' 0 8, v.extractLsb' 8 8] := leBytes_word2 v

theorem startDelay_eq {s : State} {c : ChanId} {st : Step} (h : s.setProgress c .waiting = s) : startDelay s c st =
    s.setChan c { s.chan c with wait := .timer, timer := some (StepRecord.count st.bits) } := by
  unfold startDelay
  rw [h]
  rfl

section
variable {s : State} {c : ChanId} {sc : Script} {st : Step} (hs : (s.chan c).script = some sc) (hc : sc.current = some st)
  (hp : st.progress = .waiting)
include hs hc hp

theorem joinSync_eq : joinSync s c st = (s.setCounter (StepRecord.index st.bits) { s.counter (StepRecord.index st.bits) with
    waiters := (s.counter (StepRecord.index st.bits)).waiters ++ [{
      chan := c, threshold := StepRecord.count st.bits, consume := StepRecord.consume st.bits,
      timeout := if StepRecord.timeout st.bits = 0 then none else some (s.timebase + StepRecord.timeout st.bits) }] }).setWait c
        .sync := by
  have hself (x : SyncCounter) : (s.setCounter (StepRecord.index st.bits) x).setProgress c .waiting =
      s.setCounter (StepRecord.index st.bits) x :=
    setProgress_self (s := s.setCounter (StepRecord.index st.bits) x) hs hc hp
  unfold joinSync
  dsimp only
  rw [hself]
  rfl

theorem joinAttn_eq : joinAttn s c st = (s.setLine (StepRecord.index st.bits) { s.line (StepRecord.index st.bits) with
    waiters := (s.line (StepRecord.index st.bits)).waiters ++ [{
      chan := c, timeout := if StepRecord.timeout st.bits = 0 then none else some (s.timebase + StepRecord.timeout st.bits) }] }).setWait c
        .attention := by
  have hself (x : AttnLine) : (s.setLine (StepRecord.index st.bits) x).setProgress c .waiting =
      s.setLine (StepRecord.index st.bits) x :=
    setProgress_self (s := s.setLine (StepRecord.index st.bits) x) hs hc hp
  unfold joinAttn
  dsimp only
  rw [hself]
  rfl

end

/-- The actions of a step in its wait (R58, R60, R62). -/
theorem act_waiting {s : State} {c : ChanId} {sc : Script} {st : Step} (hin : InStep s c sc st) (hp : st.progress = .waiting) :
    let k := StepRecord.index st.bits
    let count := StepRecord.count st.bits
    let timeout : Option Time :=
      if StepRecord.timeout st.bits = 0 then none else some (s.timebase + StepRecord.timeout st.bits)
    (StepRecord.kind st.bits = some .delay →
      act s c = s.setChan c { s.chan c with wait := .timer, timer := some count }) ∧
    (StepRecord.kind st.bits = some .await →
      let consume := StepRecord.consume st.bits
      let met := count ≤ (s.counter k).value ∧ (consume = true → ∀ w ∈ (s.counter k).waiters, w.consume = false)
      (met → act s c = completeStep (if consume then
        s.setCounter k { s.counter k with value := (s.counter k).value - count } else s) c) ∧
      (¬ met → act s c = (s.setCounter k { s.counter k with
        waiters := (s.counter k).waiters ++ [{ chan := c, threshold := count, consume := consume, timeout := timeout }] }
        ).setWait c .sync)) ∧
    (StepRecord.kind st.bits = some .attend →
      let l := s.line k
      let joins : State :=
        (s.setLine k { l with waiters := l.waiters ++ [{ chan := c, timeout := timeout }] }).setWait c .attention
      (l.mode = .off ∨ l.route = .event → act s c = endScript s c .attnNotRouted sc.ordinals 0) ∧
      (l.mode = .edge → l.route = .wait → l.count = 0 → act s c = joins) ∧
      (l.mode = .edge → l.route = .wait → l.count ≠ 0 →
        let t := s.setLine k { l with count := l.count - 1, saturated := false }
        act s c = completeStep (if l.saturated then t.warn c warnAttnSaturated else t) c) ∧
      (l.mode = .level → l.route = .wait → l.level = true → act s c = completeStep s c) ∧
      (l.mode = .level → l.route = .wait → l.level = false → act s c = joins)) := by
  intro k count timeout
  obtain ⟨hs, -, hc⟩ := hin
  have hst := step?_current hs hc
  refine ⟨fun hk => ?_, fun hk => ?_, fun hk => ?_⟩
  · rw [act_of_delay hst hp hk, startDelay_eq (setProgress_self hs hc hp)]
  · intro consume met
    have hmet : syncSatisfied (s.counter k) count consume = true ↔ met := syncSatisfied_iff _ _ _
    refine ⟨fun hm => ?_, fun hm => ?_⟩
    · rw [act_of_await hst hp hk, startAwait_met (hmet.mpr hm)]
    · rw [act_of_await hst hp hk, startAwait_unmet (mt hmet.mp hm), joinSync_eq hs hc hp]
  · intro l joins
    have hjoins : joinAttn s c st = joins := joinAttn_eq hs hc hp
    refine ⟨fun hl => ?_, fun hm hr hcount => ?_, fun hm hr hcount => ?_, fun hm hr hlevel => ?_, fun hm hr hlevel => ?_⟩
    · have hord : ordinalOf s c = sc.ordinals := by unfold ordinalOf; rw [hs]
      rw [act_of_attend hst hp hk, startAttend_notRouted hl, hord]
    · rw [act_of_attend hst hp hk, startAttend_edge hr hm, if_neg (not_not.mpr hcount), hjoins]
    · rw [act_of_attend hst hp hk, startAttend_edge hr hm, if_pos hcount]
      rfl
    · rw [act_of_attend hst hp hk, startAttend_level hr hm, if_pos hlevel]
    · rw [act_of_attend hst hp hk, startAttend_level hr hm, if_neg (Bool.eq_false_iff.mp hlevel), hjoins]

/-- Settles O24, by whether a step is current and the progress it stopped at. -/
theorem startChannelResumes : Obligations.StartChannelResumes := by
  refine ⟨fun s rec c sc ht hn hs he => ?_, fun s c sc st hin => ?_⟩
  · intro resumed' starts
    have hstart : exec (.startChannel rec) s = .next (settle (adminAnswer (resume (headPast s) c) (AdminRecord.id rec) .ok 0)) := by
      have hruns := channelCommand_runs (run := start) ht hn (show startAllowed .paused = true from rfl) rfl
      exact congrArg Host.Outcome.next (hruns.trans (start_resumes (s := headPast s) _ hn.2 hs he))
    refine ⟨fun hk hc hw hf => ?_, fun hc => ?_, fun st hc => ⟨fun hp => ?_, fun n v hp => ?_⟩⟩
    · rw [hstart, resume_empty (s := headPast s) hs hk he hc hw hf]
      rfl
    · exact hstart.trans (by rw [resume_between (s := headPast s) hs hc]; rfl)
    · exact hstart.trans (by rw [resume_inside (s := headPast s) hs hc, resumeStep_act hp]; rfl)
    · exact hstart.trans (by rw [resume_inside (s := headPast s) hs hc, resumeStep_poll hp]; rfl)
  · intro a host presents moves bytes formed diverted
    obtain ⟨hs, he, hc⟩ := hin
    have hst := step?_current hs hc
    have hord : ordinalOf s c = sc.ordinals := by unfold ordinalOf; rw [hs]
    have hfail (e : Status) (p : Progress) (hp : st.progress = p) :
        failAccess s c e = endScript s c e sc.ordinals (accessDetail { st with progress := p }) := by
      subst hp
      unfold failAccess
      rw [hst]
      exact congrArg (fun o => endScript s c e o _) hord
    refine ⟨act_of_fresh hst, fun hp => ?_, fun hp => ?_, fun v hp => ?_, fun hp => ?_, fun kept b hp => ?_, fun n v hp => ?_,
      fun d next hp => ⟨fun hle => ?_, fun hlt => ?_⟩, fun d next v hp => ?_, fun d next hp => ⟨fun hle => ?_, fun hlt => ?_⟩,
      fun d next v hp => ?_, fun hp => act_waiting ⟨hs, he, hc⟩ hp⟩
    · rw [act_of_write hst hp, present_at hs hc hp]
      rfl
    · refine ⟨fun hd => ?_, fun i g hl hg => ⟨fun hw ho => ?_, fun ha => ⟨fun hx => ?_, fun e hx => ?_⟩⟩⟩
      · rw [act_of_read_presented hst hp (divert_presented hd), present_at hs hc hp]
        rfl
      · rw [act_of_read_failed hst hp (divert_misaligned hl hg hw ho), hfail _ _ hp]
        rfl
      · rw [act_of_read_failed hst hp (divert_miss hl hg ha hx), hfail _ _ hp]
        rfl
      · rw [act_of_read_served hst hp (divert_served hl hg ha hx), slotBytes_eq]
        rfl
    · rw [act_of_readValue hst hp, slotBytes_eq]
      rfl
    · refine ⟨fun hd => ?_, fun i g hl hg => ⟨fun hw ho => ?_, fun ha => ⟨fun hx => ?_, fun e hx => ?_⟩⟩⟩
      · rw [act_of_modRead_presented hst hp (divert_presented hd), present_at hs hc hp]
        rfl
      · rw [act_of_modRead_failed hst hp (divert_misaligned hl hg hw ho), hfail _ _ hp]
        rfl
      · rw [act_of_modRead_failed hst hp (divert_miss hl hg ha hx), hfail _ _ hp]
        rfl
      · rw [act_of_modRead_served hst hp (divert_served hl hg ha hx), present_after hs hc]
        rfl
    · rw [act_of_modWrite hst hp, present_at hs hc hp]
      rfl
    · rw [act_poll hst hp, present_at hs hc hp]
      rfl
    · rw [act_of_blockIn hst hp, if_pos hle, present_at hs hc hp]
      rfl
    · rw [act_of_blockIn hst hp, if_neg (Nat.not_le.mpr hlt), hord]
    · rw [act_of_blockIn_value hst hp, slotBytes_eq]
      rfl
    · rw [act_of_blockOut hst hp, if_pos hle]
      rfl
    · rw [act_of_blockOut hst hp, if_neg (Nat.not_le.mpr hlt), hord]
    · rw [act_of_blockOut_value hst hp, present_at hs hc hp]
      rfl

end Sys2Proof.Machine
end

section
/-! PROOF. The check of a step record spelled for each kind (R34, R35), and the first action of an access step (R36 to R38, R79,
R85). -/

namespace Sys2Proof.Machine

open Sys2Proof.Safety

/-! ## The flags and positions a kind leaves unused -/

/-- The flags of byte 1 a kind leaves undefined, as runs of that byte. -/
def undefinedFlags : StepKind → List (Nat × Nat)
  | .modify => [(1, 7)]
  | .poll => [(0, 3), (4, 4)]
  | .blockIn => [(2, 6)]
  | .blockOut => [(2, 6)]
  | .await => [(0, 2), (4, 4)]
  | .attend => [(0, 3), (4, 4)]
  | .write => [(0, 8)]
  | .read => [(0, 8)]
  | .call => [(0, 8)]
  | .endStep => [(0, 8)]
  | .delay => [(0, 8)]
  | .signal => [(0, 8)]

/-- The defined flags of byte 1. -/
def definedFlags : StepKind → BitVec 8
  | .modify => 1
  | .poll => 8
  | .blockIn => 3
  | .blockOut => 3
  | .await => 12
  | .attend => 8
  | .write => 0
  | .read => 0
  | .call => 0
  | .endStep => 0
  | .delay => 0
  | .signal => 0

/-- The bytes behind the flags that a kind leaves unused. -/
def unusedBytes : StepKind → List (Nat × Nat)
  | .write => [byteRun 5 3, byteRun 10 6]
  | .read => [byteRun 5 3]
  | .modify => [byteRun 5 3, byteRun 12 4]
  | .poll => [byteRun 5 3]
  | .blockIn => [byteRun 5 1]
  | .blockOut => [byteRun 5 1]
  | .call => [byteRun 2 6]
  | .endStep => [byteRun 2 14]
  | .delay => [byteRun 2 4, byteRun 8 8]
  | .signal => [byteRun 5 1, byteRun 8 8]
  | .await => [byteRun 5 1, byteRun 12 4]
  | .attend => [byteRun 5 3, byteRun 12 4]

theorem unusedRuns_rest (k : StepKind) : ~~~(usedBits 128 (StepRecord.runs k)) =
    usedBits 128 ((undefinedFlags k).map (fun p => (8 + p.1, p.2)) ++ unusedBytes k) := by
  cases k <;> decide

theorem unusedRuns_inside (k : StepKind) :
    ∀ p ∈ (undefinedFlags k).map (fun p => (8 + p.1, p.2)) ++ unusedBytes k, p.1 + p.2 ≤ 128 := by
  cases k <;> decide

theorem definedFlags_rest (k : StepKind) : ~~~(definedFlags k) = usedBits 8 (undefinedFlags k) := by cases k <;> decide

theorem undefinedFlags_inside (k : StepKind) : ∀ p ∈ undefinedFlags k, p.1 + p.2 ≤ 8 := by cases k <;> decide

theorem flags_iff (bits : StepBits) (k : StepKind) : bits.extractLsb' 8 8 &&& ~~~(definedFlags k) = 0 ↔
    ∀ p ∈ (undefinedFlags k).map (fun p => (8 + p.1, p.2)), bits.extractLsb' p.1 p.2 = 0 := by
  rw [definedFlags_rest, and_usedBits_eq_zero _ _ (undefinedFlags_inside k), List.forall_mem_map]
  refine forall₂_congr fun p hp => ?_
  have hin := undefinedFlags_inside k p hp
  have hsame : (bits.extractLsb' 8 8).extractLsb' p.1 p.2 = bits.extractLsb' (8 + p.1) p.2 := by
    apply BitVec.eq_of_getLsbD_eq
    intro i hi
    have hlt : p.1 + i < 8 := by omega
    simp [hi, hlt, Nat.add_assoc]
  rw [hsame]

theorem stepReserved_iff (bits : StepBits) (k : StepKind) : reservedClear bits (StepRecord.runs k) = true ↔
    bits.extractLsb' 8 8 &&& ~~~(definedFlags k) = 0 ∧ ∀ p ∈ unusedBytes k, bits.extractLsb' p.1 p.2 = 0 := by
  rw [reservedClear_iff bits (unusedRuns_rest k) (unusedRuns_inside k), flags_iff, List.forall_mem_append]

theorem stepOk_iff (bits : StepBits) (k : StepKind) : StepRecord.ok bits k = true ↔
    bits.extractLsb' 8 8 &&& ~~~(definedFlags k) = 0 ∧ (∀ p ∈ unusedBytes k, bits.extractLsb' p.1 p.2 = 0) ∧
      StepRecord.rangesOk bits k = true := by
  unfold StepRecord.ok
  rw [Bool.and_eq_true, stepReserved_iff, and_assoc]

theorem blockOk_iff (bits : StepBits) : StepRecord.blockOk bits = true ↔
    1 ≤ (bits.extractLsb' 48 16).toNat ∧ (bits.extractLsb' 48 16).toNat ≤ 4096 ∧
      (bits.extractLsb' 64 64).toNat + 2 * (bits.extractLsb' 48 16).toNat ≤ 2 ^ 64 ∧
      (bits.getLsbD 9 = true ∨ (bits.extractLsb' 16 24).toNat + (bits.extractLsb' 48 16).toNat - 1 ≤ 0xFFFFFF) := by
  unfold StepRecord.blockOk
  rw [Bool.and_eq_true, Bool.and_eq_true, Bool.and_eq_true, Bool.or_eq_true, hostRangeOk_iff, and_assoc, and_assoc]
  simp only [decide_eq_true_eq]
  rfl

theorem pollOk_iff (bits : StepBits) : StepRecord.rangesOk bits .poll = true ↔
    bits.extractLsb' 112 16 ≠ 0 ∧ bits.extractLsb' 80 16 &&& ~~~(bits.extractLsb' 64 16) = 0 := by
  have htries : StepRecord.tries bits = 0 ↔ bits.extractLsb' 112 16 = 0 :=
    ⟨fun h => BitVec.eq_of_toNat_eq h, fun h => congrArg BitVec.toNat h⟩
  unfold StepRecord.rangesOk
  rw [Bool.and_eq_true, bne_iff_ne, beq_iff_eq, ne_eq, htries]
  rfl

/-! ## A request joins the set (R79, R85, R116) -/

theorem noneP_false {s : State} {c : ChanId} (h : s.presentedOf c ≠ none) : s.noneP = false := by
  rw [← Bool.not_eq_true, noneP_iff]
  exact fun hno => h (hno c)

theorem joinSet_eq (s : State) (c : ChanId) (r : Request) : joinSet s c r = { s with
    chans := s.chans.set c { s.chan c with wait := .bus },
    arb := { s.arb with presented := s.arb.presented.set c (some r) },
    own := { s.own with state :=
      if s.own.mode = .guest ∧ s.own.state = .released ∧ s.own.gnt = false then .requesting else s.own.state } } := by
  have hnone : ((s.setPresented c (some r)).setWait c .bus).noneP = false :=
    noneP_false (c := c) (by rw [setWait_eq, presentedOf_setChan, presentedOf_setPresented_self]; simp)
  unfold joinSet askBus
  rw [hnone]
  by_cases h : s.own.mode = .guest ∧ s.own.state = .released ∧ s.own.gnt = false
  · obtain ⟨h1, h2, h3⟩ := h
    rw [if_pos ⟨h1, h2, rfl, h3⟩, if_pos ⟨h1, h2, h3⟩]
    rfl
  · rw [if_neg fun ⟨h1, h2, _, h3⟩ => h ⟨h1, h2, h3⟩, if_neg h]
    rfl

theorem lockHeldBy_iff (s : State) (c : ChanId) : lockHeldBy s c = true ↔ ∃ k, s.arb.lock = some (c, k) := by
  unfold lockHeldBy
  split
  · rename_i h k hl
    rw [hl, beq_iff_eq]
    exact ⟨fun e => ⟨k, by rw [e]⟩, fun ⟨k', e⟩ => by cases e; rfl⟩
  · rename_i hl
    rw [hl]
    simp

theorem stepMark_iff (st : Step) : stepMark st = true ↔ st.bits.getLsbD 8 = true ∧
    (st.progress = .modRead ∨ (∃ b, st.progress = .modWrite none b) ∨ (∃ n x, st.progress = .blockIn 0 n x) ∨
      ∃ n x, st.progress = .blockOut 0 n x) := by
  unfold stepMark
  rw [Bool.and_eq_true]
  refine and_congr Iff.rfl ?_
  obtain ⟨addr, bits, progress⟩ := st
  cases progress with
  | modWrite kept b => cases kept <;> simp
  | blockIn d n x => cases d <;> simp
  | blockOut d n x => cases d <;> simp
  | _ => simp

/-- The mark of a request (R85). -/
theorem request_marks {s : State} {c : ChanId} {sc : Script} (st : Step) (p : Purpose) (a : BusAddr) (v : Option Value)
    (hs : (s.chan c).script = some sc) :
    let marked (m : Option LockKind) : Prop := request s c st p a v =
      { addr := a, purpose := p, value := v, mark := m, attempt := 1, presentedAt := s.timebase }
    let first : Prop := st.progress = .modRead ∨ (∃ b, st.progress = .modWrite none b) ∨
      (∃ n x, st.progress = .blockIn 0 n x) ∨ ∃ n x, st.progress = .blockOut 0 n x
    (∀ k, s.arb.lock = some (c, k) → marked none) ∧
    ((∀ k, s.arb.lock ≠ some (c, k)) →
      (sc.lockBus = true → marked (some .script)) ∧
      (sc.lockBus = false → st.bits.getLsbD 8 = true → first → marked (some .step)) ∧
      (sc.lockBus = false → st.bits.getLsbD 8 = false ∨ ¬ first → marked none)) := by
  intro marked first
  have hmark (m : Option LockKind) (h : lockMark s c st = m) : marked m := by
    show request s c st p a v = _
    rw [request, h]
  have hmk := lockMark_script hs st
  refine ⟨fun k hl => hmark _ ?_, fun hno => ?_⟩
  · rw [hmk, if_pos ((lockHeldBy_iff s c).mpr ⟨k, hl⟩)]
  · have hfree : ¬ lockHeldBy s c = true := mt (lockHeldBy_iff s c).mp (not_exists.mpr hno)
    rw [if_neg hfree] at hmk
    refine ⟨fun hb => hmark _ ?_, fun hb hl hf => hmark _ ?_, fun hb hno => hmark _ ?_⟩
    · rw [hmk, if_pos hb]
    · rw [hmk, if_neg (by simp [hb]), if_pos ((stepMark_iff st).mpr ⟨hl, hf⟩)]
    · have hnot : ¬ stepMark st = true := by
        rw [stepMark_iff]
        rintro ⟨hl, hf⟩
        rcases hno with h | h
        · cases h.symm.trans hl
        · exact h hf
      rw [hmk, if_neg (by simp [hb]), if_neg hnot]

/-! ## The rows of the step kinds -/

/-- Each step kind's row carries out a step of its kind. -/
theorem stepRows {c : ChanId} {k : StepKind} {i : Instr} (h : (k, i) ∈ [(StepKind.write, Instr.write c), (.read, .read c),
      (.modify, .modify c), (.poll, .poll c), (.blockIn, .blockIn c), (.blockOut, .blockOut c), (.call, .call c),
      (.endStep, .endStep c), (.delay, .delay c), (.signal, .signal c), (.await, .await c), (.attend, .attend c)]) (s : State) :
    exec i s = .next (carryOut s c k (runStep c k)) := by
  simp only [List.mem_cons, List.not_mem_nil, or_false, Prod.mk.injEq] at h
  rcases h with h | h | h | h | h | h | h | h | h | h | h | h <;> (obtain ⟨rfl, rfl⟩ := h; rfl)

/-- An access step acts at the progress its kind begins with. -/
theorem accessRows {s : State} {c : ChanId} {st : Step} {k : StepKind} {i : Instr} {p : Progress}
    (h : (k, i, p) ∈ [(StepKind.write, Instr.write c, Progress.write), (.read, .read c, .read), (.modify, .modify c, .modRead),
      (.poll, .poll c, .poll (StepRecord.tries st.bits) 0),
      (.blockIn, .blockIn c, .blockIn 0 (StepRecord.addr st.bits).toNat none),
      (.blockOut, .blockOut c, .blockOut 0 (StepRecord.addr st.bits).toNat none)]) :
    exec i s = .next (carryOut s c k (runStep c k)) ∧ runStep c k s st = act (s.setProgress c p) c := by
  simp only [List.mem_cons, List.not_mem_nil, or_false, Prod.mk.injEq] at h
  rcases h with h | h | h | h | h | h <;> (obtain ⟨rfl, rfl, rfl⟩ := h; exact ⟨rfl, rfl⟩)

theorem hostAdd_zero (a : HostAddr) : hostAdd a 0 = a := by
  rw [hostAdd_of_lt (by omega), Nat.add_zero, BitVec.ofNat_toNat, BitVec.setWidth_eq]

/-! ## The first action of an access step -/

theorem script_of_step? {s : State} {c : ChanId} {st : Step} (h : s.step? c = some st) :
    ∃ sc, (s.chan c).script = some sc ∧ sc.current = some st := by
  rwa [step?_def, Option.bind_eq_some_iff] at h

section
variable {s : State} {c : ChanId} {sc : Script} {st : Step} (hs : (s.chan c).script = some sc) (hc : sc.current = some st)
include hs hc

theorem setProgress_setProgress (p q : Progress) : (s.setProgress c p).setProgress c q = s.setProgress c q := by
  rw [setProgress_current (setProgress_script hs hc p) rfl, setProgress_current hs hc p, chan_setChan_self, setChan_setChan,
    setProgress_current hs hc q]

/-- The first presentation of a step that the mode lets through. -/
theorem present_first (p : Progress) (pu : Purpose) (a : BusAddr) (v : Option Value) (hm : s.own.mode ≠ .isolated) :
    present (s.setProgress c p) c { st with progress := p } pu a v =
      joinSet (s.setProgress c p) c (request s c { st with progress := p } pu a v) := by
  rw [present_after hs hc, if_neg hm]

theorem firstAct_write (hm : s.own.mode ≠ .isolated) : act (s.setProgress c .write) c =
    joinSet (s.setProgress c .write) c
      (request s c { st with progress := .write } .write (StepRecord.addr st.bits) (some (StepRecord.value st.bits))) := by
  rw [act_of_write (setProgress_step? hs hc _) rfl, present_first hs hc _ _ _ _ hm]

theorem firstAct_write_isolated (hm : s.own.mode = .isolated) : act (s.setProgress c .write) c =
    endScript (s.setProgress c .write) c .portIsolated (ordinalOf s c) ((StepRecord.addr st.bits).setWidth 32) := by
  have hord : ordinalOf s c = sc.ordinals := by unfold ordinalOf; rw [hs]
  rw [act_of_write (setProgress_step? hs hc _) rfl, present_after hs hc, if_pos hm, hord]
  rfl

theorem firstAct_poll (n : Nat) (v : Value) (hm : s.own.mode ≠ .isolated) : act (s.setProgress c (.poll n v)) c =
    joinSet (s.setProgress c (.poll n v)) c
      (request s c { st with progress := .poll n v } .pollTry (StepRecord.addr st.bits) none) := by
  rw [act_poll (setProgress_step? hs hc _) rfl, present_first hs hc _ _ _ _ hm]

theorem firstAct_blockIn (hm : s.own.mode ≠ .isolated) :
    act (s.setProgress c (.blockIn 0 (StepRecord.addr st.bits).toNat none)) c =
      joinSet (s.setProgress c (.blockIn 0 (StepRecord.addr st.bits).toNat none)) c
        (request s c { st with progress := .blockIn 0 (StepRecord.addr st.bits).toNat none } .blockIn (StepRecord.addr st.bits)
          none) := by
  have htop : (StepRecord.addr st.bits).toNat ≤ 0xFFFFFF := Nat.le_of_lt_succ (StepRecord.addr st.bits).isLt
  rw [act_of_blockIn (setProgress_step? hs hc _) rfl, if_pos htop, present_first hs hc _ _ _ _ hm, BitVec.ofNat_toNat,
    BitVec.setWidth_eq]

theorem firstAct_blockOut : act (s.setProgress c (.blockOut 0 (StepRecord.addr st.bits).toNat none)) c =
    startData (s.setProgress c (.blockOut 0 (StepRecord.addr st.bits).toNat none)) c
      (.slotRead (StepRecord.hostAddr st.bits)) := by
  have htop : (StepRecord.addr st.bits).toNat ≤ 0xFFFFFF := Nat.le_of_lt_succ (StepRecord.addr st.bits).isLt
  rw [act_of_blockOut (setProgress_step? hs hc _) rfl, if_pos htop, Nat.mul_zero, hostAdd_zero]

theorem firstAct_read_presented (hm : s.own.mode ≠ .isolated) (hd : divert s (StepRecord.addr st.bits) = .presented) :
    act (s.setProgress c .read) c = joinSet (s.setProgress c .read) c
      (request s c { st with progress := .read } .read (StepRecord.addr st.bits) none) := by
  rw [act_of_read_presented (setProgress_step? hs hc _) rfl hd, present_first hs hc _ _ _ _ hm]

theorem firstAct_read_served {v : Value} (hd : divert s (StepRecord.addr st.bits) = .served v) :
    act (s.setProgress c .read) c = startData (s.setProgress c (.readValue v)) c
      (.readWrite { addr := StepRecord.hostAddr st.bits, bytes := slotBytes v }) := by
  rw [act_of_read_served (setProgress_step? hs hc _) rfl hd, setProgress_setProgress hs hc]

theorem firstAct_read_miss (hd : divert s (StepRecord.addr st.bits) = .failed .shadowMiss) : act (s.setProgress c .read) c =
    endScript (s.setProgress c .read) c .shadowMiss (ordinalOf s c) ((StepRecord.addr st.bits).setWidth 32) := by
  have hord : ordinalOf (s.setProgress c .read) c = ordinalOf s c := by
    unfold ordinalOf
    rw [setProgress_script hs hc, hs]
  rw [act_of_read_failed (setProgress_step? hs hc _) rfl hd, failAccess_step _ (setProgress_step? hs hc _), hord]

theorem firstAct_modify_presented (hm : s.own.mode ≠ .isolated) (hd : divert s (StepRecord.addr st.bits) = .presented) :
    act (s.setProgress c .modRead) c = joinSet (s.setProgress c .modRead) c
      (request s c { st with progress := .modRead } .modifyRead (StepRecord.addr st.bits) none) := by
  rw [act_of_modRead_presented (setProgress_step? hs hc _) rfl hd, present_first hs hc _ _ _ _ hm]

theorem firstAct_modify_served {v : Value} (hm : s.own.mode ≠ .isolated) (hd : divert s (StepRecord.addr st.bits) = .served v) :
    act (s.setProgress c .modRead) c = joinSet (s.setProgress c (.modWrite none false)) c
      (request s c { st with progress := .modWrite none false } .modifyWrite (StepRecord.addr st.bits) none) := by
  rw [act_of_modRead_served (setProgress_step? hs hc _) rfl hd, setProgress_setProgress hs hc]
  exact present_first hs hc _ _ _ _ hm

end

/-- Settles O52, by the kind; by the mark; and by how a diverted read is served. -/
theorem accessStepsPresent : Obligations.AccessStepsPresent := by
  refine ⟨fun bits k => ?_, joinSet_eq, fun s c sc st p a v hs => request_marks st p a v hs, fun s c st k i => ?_,
    fun s c st k i p => ?_, fun s c st => ?_⟩
  · intro zero flags addr count host block
    rw [stepOk_iff]
    cases k with
    | blockIn =>
      show _ ∧ _ ∧ StepRecord.blockOk bits = true ↔ block
      rw [blockOk_iff]
      exact and_congr Iff.rfl (and_congr (by simp [unusedBytes, zero, byteRun]) Iff.rfl)
    | blockOut =>
      show _ ∧ _ ∧ StepRecord.blockOk bits = true ↔ block
      rw [blockOk_iff]
      exact and_congr Iff.rfl (and_congr (by simp [unusedBytes, zero, byteRun]) Iff.rfl)
    | poll =>
      rw [pollOk_iff]
      exact and_congr Iff.rfl (and_congr (by simp [unusedBytes, zero, byteRun]) Iff.rfl)
    | write => exact and_congr Iff.rfl (by simp [unusedBytes, zero, byteRun, StepRecord.rangesOk])
    | read =>
      refine and_congr Iff.rfl (and_congr (by simp [unusedBytes, zero, byteRun]) ?_)
      exact hostRangeOk_iff _ _
    | modify => exact and_congr Iff.rfl (by simp [unusedBytes, zero, byteRun, StepRecord.rangesOk])
    | endStep => exact and_congr Iff.rfl (by simp [unusedBytes, zero, byteRun, StepRecord.rangesOk])
    | call =>
      refine and_congr Iff.rfl (and_congr (by simp [unusedBytes, zero, byteRun]) ?_)
      unfold StepRecord.rangesOk
      rw [Bool.and_eq_true, multipleOf_iff, hostRangeOk_iff]
      rfl
    | delay =>
      have hr : StepRecord.rangesOk bits .delay = true ↔ count ≠ 0 := bne_iff_ne
      rw [hr]
      exact and_congr Iff.rfl (by simp [unusedBytes, zero, byteRun, and_assoc])
    | signal =>
      have hr : StepRecord.rangesOk bits .signal = true ↔ addr ≤ 7 ∧ count ≠ 0 := by
        unfold StepRecord.rangesOk StepRecord.indexOk
        rw [Bool.and_eq_true, decide_eq_true_eq, bne_iff_ne]
        rfl
      rw [hr]
      exact and_congr Iff.rfl (by simp [unusedBytes, zero, byteRun, and_assoc])
    | await =>
      have hr : StepRecord.rangesOk bits .await = true ↔ addr ≤ 7 := decide_eq_true_iff
      rw [hr]
      exact and_congr Iff.rfl (by simp [unusedBytes, zero, byteRun, and_assoc])
    | attend =>
      have hr : StepRecord.rangesOk bits .attend = true ↔ addr ≤ 7 := decide_eq_true_iff
      rw [hr]
      exact and_congr Iff.rfl (by simp [unusedBytes, zero, byteRun, and_assoc])
  · intro does hi hr hrun hst hf hk hbad
    have hfails : checked s c k (runStep c k) st = endScript s c .badStep (ordinalOf s c) 0 := if_neg (by simp [hbad])
    exact ⟨(takeStep_eq hst hk).trans hfails, by rw [stepRows hi, carryOut_eq hr hrun hst hf hk, hfails]⟩
  · intro does hi hready
    obtain ⟨hexec, hrun⟩ := accessRows (s := s) hi
    exact ready_does hready hexec hrun
  · intro does a presents shadowed
    have aligned (g : Region) (h : g.width = .w16 → a.toNat % 2 = 0) : g.width = .w8 ∨ a.toNat % 2 = 0 := by
      cases hw : g.width
      · exact .inl rfl
      · exact .inr (h hw)
    refine ⟨fun hm => ⟨fun h => ?_, fun h => ?_, fun h => ?_, fun hno => ⟨fun h => ?_, fun h => ?_⟩, fun i g e hsh hw he h => ?_⟩,
      fun i g hsh hw h => ⟨fun e he => ?_, fun he => ?_⟩, fun h => ?_, fun hm h => ?_⟩
    all_goals obtain ⟨sc, hs, hc⟩ := script_of_step? h.2.2.1
    · exact ready_does h rfl (firstAct_write hs hc hm)
    · exact ready_does h rfl (firstAct_poll hs hc _ _ hm)
    · exact ready_does h rfl (firstAct_blockIn hs hc hm)
    · exact ready_does h rfl (firstAct_read_presented hs hc hm (divert_presented fun i g hl hg => hno i g ⟨hl, hg⟩))
    · exact ready_does h rfl (firstAct_modify_presented hs hc hm (divert_presented fun i g hl hg => hno i g ⟨hl, hg⟩))
    · exact ready_does h rfl (firstAct_modify_served hs hc hm (divert_served hsh.1 hsh.2 (aligned g hw) he))
    · refine ready_does h rfl ((firstAct_read_served hs hc (divert_served hsh.1 hsh.2 (aligned g hw) he)).trans ?_)
      rw [slotBytes_eq]
      rfl
    · exact ready_does h rfl (firstAct_read_miss hs hc (divert_miss hsh.1 hsh.2 (aligned g hw) he))
    · exact ready_does h rfl (firstAct_blockOut hs hc)
    · exact ready_does h rfl (firstAct_write_isolated hs hc hm)

end Sys2Proof.Machine
end

section
/-! PROOF. The course of a script: steps complete and start in order, fetches start, and a stop is reached (R7 to R9, R21, R25,
R29). -/

namespace Sys2Proof.Machine

open Sys2Proof.Safety

/-! ## The next step (R7) -/

/-- The entry taken from the window fails, or becomes the current step (R7). -/
def startEntry (s : State) (c : ChanId) : Entry → State
  | .fetchFault => failStep s c .hostFault 0
  | .record addr bits =>
    if StepRecord.kind bits = none then failStep s c .badStep 0
    else (s.modScript c fun sc => { sc with current := some { addr := addr, bits := bits, progress := .fresh } }).setWait c .none

section
variable {s : State} {c : ChanId} {sc : Script} (hs : (s.chan c).script = some sc)
include hs

/-- The channel as its next step begins: the ordinal counts on, and the entry has left the window (R7). -/
theorem nextBegun (rest : List Entry) :
    s.modScript c (fun sc => { sc with ordinals := counterInc sc.ordinals, window := rest }) =
      s.setChan c { s.chan c with script := some { sc with
        ordinals := if sc.ordinals < 4294967295 then sc.ordinals + 1 else sc.ordinals, window := rest } } := by
  rw [modScript_eq, hs]
  rfl

theorem failStep_begun (rest : List Entry) (st : Status) :
    failStep (s.modScript c fun sc => { sc with ordinals := counterInc sc.ordinals, window := rest }) c st 0 =
      endScript (s.setChan c { s.chan c with script := some { sc with
        ordinals := if sc.ordinals < 4294967295 then sc.ordinals + 1 else sc.ordinals, window := rest } }) c st
        (if sc.ordinals < 4294967295 then sc.ordinals + 1 else sc.ordinals) 0 := by
  rw [nextBegun hs, failStep, ordinalOf, chan_setChan_self]

variable (hk : sc.checked = true) (he : sc.ending = none) (hc : sc.current = none)
include hk he hc

theorem startNext_cons {e : Entry} {rest : List Entry} (hw : sc.window = e :: rest) : startNext s c =
    if sc.budget ≠ 0 ∧ sc.executed = sc.budget then endScript s c .stepBudget (sc.ordinals + 1) 0
    else startEntry (s.modScript c fun sc => { sc with ordinals := counterInc sc.ordinals, window := rest }) c e := by
  unfold startNext
  rw [hs]
  dsimp only
  rw [if_neg (by rw [hk, he, hc]; simp), hw]
  cases e with
  | fetchFault => rfl
  | record a bits =>
    dsimp only [startEntry]
    cases StepRecord.kind bits with
    | none => rw [if_pos rfl]
    | some k => rw [if_neg (Option.some_ne_none k)]

variable {rest : List Entry}

theorem startNext_budget (hw : sc.window ≠ []) (hb : sc.budget ≠ 0) (hx : sc.executed = sc.budget) :
    startNext s c = endScript s c .stepBudget (sc.ordinals + 1) 0 := by
  obtain ⟨e, rest, hw⟩ := List.exists_cons_of_ne_nil hw
  rw [startNext_cons hs hk he hc hw, if_pos ⟨hb, hx⟩]

variable (hb : ¬ (sc.budget ≠ 0 ∧ sc.executed = sc.budget))
include hb

theorem startNext_fault (hw : sc.window = .fetchFault :: rest) : startNext s c =
    failStep (s.modScript c fun sc => { sc with ordinals := counterInc sc.ordinals, window := rest }) c .hostFault 0 := by
  rw [startNext_cons hs hk he hc hw, if_neg hb, startEntry]

theorem startNext_noKind {a : HostAddr} {bits : StepBits} (hw : sc.window = .record a bits :: rest)
    (hn : StepRecord.kind bits = none) : startNext s c =
    failStep (s.modScript c fun sc => { sc with ordinals := counterInc sc.ordinals, window := rest }) c .badStep 0 := by
  rw [startNext_cons hs hk he hc hw, if_neg hb, startEntry, if_pos hn]

theorem startNext_starts {a : HostAddr} {bits : StepBits} (hw : sc.window = .record a bits :: rest)
    (hn : StepRecord.kind bits ≠ none) : startNext s c = s.setChan c { s.chan c with
      wait := .none,
      script := some { sc with
        ordinals := if sc.ordinals < 4294967295 then sc.ordinals + 1 else sc.ordinals, window := rest,
        current := some { addr := a, bits := bits, progress := .fresh } } } := by
  rw [startNext_cons hs hk he hc hw, if_neg hb, startEntry, if_neg hn, nextBegun hs, modScript_eq, chan_setChan_self, setChan_setChan, setWait_eq, chan_setChan_self, setChan_setChan]
  rfl

end

/-! ## The next fetch (R9) -/

theorem barsFetch_iff (e : Entry) : e.barsFetch = false ↔
    ∃ a bits, e = .record a bits ∧ StepRecord.kind bits ≠ some .call ∧ StepRecord.kind bits ≠ some .endStep := by
  cases e with
  | fetchFault => simp [Entry.barsFetch]
  | record a bits => simp [Entry.barsFetch]

theorem freshTurn_iff (o : Option Step) : freshTurn o = false ↔ ∀ st, o = some st → st.progress = .fresh →
    StepRecord.kind st.bits ≠ some .call ∧ StepRecord.kind st.bits ≠ some .endStep := by
  cases o with
  | none => simp [freshTurn]
  | some st => simp [freshTurn]

theorem mayFetch_iff {ch : Channel} {sc : Script} (hst : ch.st = .running) (hk : sc.checked = true) (he : sc.ending = none) :
    mayFetch ch sc = true ↔ sc.window.length < 4 ∧ ch.fetch = none ∧
      (∀ e ∈ sc.window, ∃ a bits, e = .record a bits ∧ StepRecord.kind bits ≠ some .call ∧
        StepRecord.kind bits ≠ some .endStep) ∧
      ∀ st, sc.current = some st → st.progress = .fresh →
        StepRecord.kind st.bits ≠ some .call ∧ StepRecord.kind st.bits ≠ some .endStep := by
  have hbars : sc.window.any Entry.barsFetch = false ↔ ∀ e ∈ sc.window, ∃ a bits, e = .record a bits ∧
      StepRecord.kind bits ≠ some .call ∧ StepRecord.kind bits ≠ some .endStep := by
    simp only [List.any_eq_false, Bool.not_eq_true, barsFetch_iff]
  rw [← hbars, ← freshTurn_iff]
  have hlen : sc.window.length < Config.windowSize ↔ sc.window.length < 4 := Iff.rfl
  simp [mayFetch, hst, hk, he, hlen, and_assoc]

theorem startFetch_self {s : State} {c : ChanId} {sc : Script} (hs : (s.chan c).script = some sc)
    (hm : mayFetch (s.chan c) sc = false) : startFetch s c = s := by
  unfold startFetch
  rw [hs]
  exact if_neg (by rw [hm]; simp)

/-! ## Stops (R21, R25, R29) -/

section
variable {s : State} {c : ChanId}

theorem reason_eq (d : Data) : d.reason = match d with
    | .requestRead _ => .fetch
    | .flushRead _ => .fetch
    | .slotRead _ => .fetch
    | _ => .hostWrite := by cases d <;> rfl

theorem windowEmpty_iff (ch : Channel) : windowEmpty ch = true ↔ ∀ sc, ch.script = some sc → sc.window = [] := by
  unfold windowEmpty
  cases ch.script <;> simp

theorem stopWait_fetch (h : s.accessOf c = false) (hd : (s.chan c).data = none) (hf : (s.chan c).fetch ≠ none)
    (hw : ∀ sc, (s.chan c).script = some sc → sc.window = []) : stopWait s c = .fetch := by
  rw [stopWait_none h hd, if_pos]
  rw [Bool.and_eq_true, Option.isSome_iff_ne_none, windowEmpty_iff]
  exact ⟨hf, hw⟩

theorem stopWait_nothing (h : s.accessOf c = false) (hd : (s.chan c).data = none)
    (hf : (s.chan c).fetch = none ∨ ∃ sc, (s.chan c).script = some sc ∧ sc.window ≠ []) : stopWait s c = .none := by
  rw [stopWait_none h hd, if_neg]
  rw [Bool.and_eq_true, Option.isSome_iff_ne_none, windowEmpty_iff]
  rintro ⟨hfetch, hempty⟩
  rcases hf with hf | ⟨sc, hs, hw⟩
  · exact hfetch hf
  · exact hw (hempty sc hs)

theorem abortCheck_ended (h : (s.chan c).st = .aborting) (hq : ¬ Unended s c ∨ quiet s c = false) :
    abortCheck s c = s.setWait c (stopWait s c) := by
  cases hs : (s.chan c).script with
  | none =>
    unfold abortCheck
    rw [h, hs]
  | some sc => exact abortCheck_busy h hs (hq.imp_left fun hu he => hu ⟨sc, hs, he⟩)

theorem goOn_stopped (h : (s.chan c).st = .stopped ∨ (s.chan c).st = .faulted) : goOn s c = releaseCheck s c := by
  unfold goOn
  rcases h with h | h <;> rw [h]

theorem goOn_still (h : (s.chan c).st = .disabled ∨ (s.chan c).st = .idle ∨ (s.chan c).st = .paused) : goOn s c = s := by
  unfold goOn
  rcases h with h | h | h <;> rw [h]

theorem adminWaitsOn_of_waiting {id : BitVec 16} {on : AdminWait} (h : s.admin.progress = .waiting id on) :
    adminWaitsOn s on = true := by
  unfold adminWaitsOn
  rw [h]
  exact beq_self_eq_true on

theorem releaseCheck_waiting {id : BitVec 16} (hq : quiet s c = true) (h : s.admin.progress = .waiting id (.release c)) :
    releaseCheck s c = adminAnswer (s.setChan c Channel.reset) id .ok 0 := by
  unfold releaseCheck
  rw [if_pos (by rw [adminWaitsOn_of_waiting h, hq]; rfl)]
  exact adminDone_waiting _ _ h

theorem releaseCheck_self (h : quiet s c = false ∨ adminWaitsOn s (.release c) = false) : releaseCheck s c = s := by
  refine if_neg fun hboth => ?_
  rw [Bool.and_eq_true] at hboth
  rcases h with h | h
  · cases hboth.2.symm.trans h
  · cases hboth.1.symm.trans h

end

/-- Settles O43: the next step by the window's oldest entry, the fetch by its conditions, and the stop by the state. -/
theorem nextStepStarts : Obligations.NextStepStarts := by
  refine ⟨fun s c sc hst hs hk he => ?_, fun s c sc hs => ?_, fun s c => ?_⟩
  · intro inc begun
    refine ⟨goOn_running hst, fun hc => ⟨startNext_empty hs hk he hc, startNext_budget hs hk he hc, fun hb => ?_⟩, ?_⟩
    · have hb' : ¬ (sc.budget ≠ 0 ∧ sc.executed = sc.budget) := by
        rintro ⟨h1, h2⟩
        rcases hb with h | h
        · exact h1 h
        · exact h h2
      exact ⟨fun rest hw => (startNext_fault hs hk he hc hb' hw).trans (failStep_begun hs rest _),
        fun a bits rest hw hn => (startNext_noKind hs hk he hc hb' hw hn).trans (failStep_begun hs rest _),
        fun a bits rest hw hn => startNext_starts hs hk he hc hb' hw hn⟩
    · intro may
      refine ⟨fun hm => startFetch_fetches hs ((mayFetch_iff hst hk he).mpr hm), fun hm => startFetch_self hs ?_⟩
      rw [← Bool.not_eq_true, mayFetch_iff hst hk he]
      exact hm
  · intro inc closed
    have hfree : completeStep s c = goOn (closed (stepLockFreed s c)) c := by
      rw [completeStep, closeStep_eq hs]
    refine ⟨fun h => ?_, fun h => ?_⟩
    · rw [hfree, stepLockFreed, if_neg h]
    · rw [hfree, stepLockFreed, if_pos h]
  · intro names
    have named (h : goOn s c = s.setWait c (stopWait s c)) : names := by
      refine ⟨fun ha => by rw [h, stopWait_access ha], fun ha => ⟨fun d hd => ?_, fun hd => ⟨fun hf hw => ?_, fun hf => ?_⟩⟩⟩
      · rw [h, stopWait_data ha hd]
        cases d <;> rfl
      · rw [h, stopWait_fetch ha hd hf hw]
      · rw [h, stopWait_nothing ha hd hf]
    refine ⟨fun hst => ⟨fun hq => named ?_, fun id hq hw => ?_⟩, fun hst => ⟨fun hu hq => ?_, fun h => named ?_⟩,
      fun hst => ⟨fun id hq hw => ?_, fun h => ?_⟩, goOn_still⟩
    · rw [goOn_pausing hst, pauseCheck_busy hst hq]
    · rw [goOn_pausing hst, pauseCheck_quiet hst hq, adminDone_waiting (id := id) _ _ (by rw [setChan_admin, hw])]
    · obtain ⟨sc, hs, he⟩ := hu
      rw [goOn_aborting hst, abortCheck_quiet hst hs he hq]
    · rw [goOn_aborting hst, abortCheck_ended hst h]
    · rw [goOn_stopped hst, releaseCheck_waiting hq hw]
    · rw [goOn_stopped hst, releaseCheck_self h]

end Sys2Proof.Machine
end

section
/-! PROOF. A request is taken, and the ends of a channel's host transfers (R3 to R6, R10, R28, R41, R43, R53, R54). -/

namespace Sys2Proof.Machine

open Sys2Proof.Safety

/-! ## The record of a request (R5) -/

theorem requestRuns_rest : ~~~(usedBits 256 RequestRecord.runs) = usedBits 256 [(20, 12), (48, 16), (128, 128)] := by decide

theorem requestOk_iff (q : Record32) : RequestRecord.ok q = true ↔ (q.extractLsb' 64 64).toNat % 16 = 0 ∧
    q.extractLsb' 20 12 = 0 ∧ q.extractLsb' 48 16 = 0 ∧ q.extractLsb' 128 128 = 0 := by
  have hclear := reservedClear_iff q requestRuns_rest (by decide)
  have hmul : multipleOf (RequestRecord.listAddr q) 16 = true ↔ (q.extractLsb' 64 64).toNat % 16 = 0 := multipleOf_iff _ _
  rw [RequestRecord.ok, Bool.and_eq_true, hmul, hclear]
  simp only [List.forall_mem_cons, List.not_mem_nil, false_imp_iff, implies_true, and_true]

theorem dataOver_chan (s : State) (c : ChanId) : (dataOver s c).chan c = { s.chan c with data := none } := chan_setChan_self ..

theorem clearData_eq (s : State) (c : ChanId) : clearData s c = dataOver s c := rfl

/-- A RUNNING script with nothing in its window fetches four records (R7, R9). -/
theorem goOn_empty {s : State} {c : ChanId} {sc : Script} (hst : (s.chan c).st = .running) (hs : (s.chan c).script = some sc)
    (hk : sc.checked = true) (he : sc.ending = none) (hc : sc.current = none) (hw : sc.window = [])
    (hf : (s.chan c).fetch = none) : goOn s c = s.setChan c { s.chan c with
      wait := .fetch, fetch := some { addr := sc.listPos, count := 4, discard := false } } := by
  have hchan : (s.setWait c .fetch).chan c = { s.chan c with wait := .fetch } := by rw [setWait_eq, chan_setChan_self]
  have hmay : mayFetch ((s.setWait c .fetch).chan c) sc = true := by
    rw [hchan]
    exact mayFetch_empty hst hk he hc hw hf
  rw [goOn_running hst, startNext_empty hs hk he hc hw, startFetch_fetches (by rw [hchan]; exact hs) hmay, hchan, setWait_eq,
    setChan_setChan, hw]
  rfl

/-! ## A request is taken (R3) -/

section
variable {s : State} {c : ChanId} {r : RingPair} (hready : s.ready = true) (hr : (s.chan c).rings = some r)
include hr

include hready in
theorem takeRequest_takes (hst : (s.chan c).st = .idle) (hrec : r.sqHead ≠ r.sqTail)
    (hfree : r.unconsumed + (if (s.chan c).reserved then 1 else 0) < r.cqSize) : takeRequest s c = s.setChan c { s.chan c with
      st := .running, wait := .fetch, reserved := true, script := some Script.taken,
      data := some (.requestRead (hostAdd r.sqBase (32 * r.sqHead))) } := by
  unfold takeRequest
  dsimp only
  rw [hr]
  exact if_pos ⟨hready, hst, (hasRecord_iff r).mpr hrec, (hasSlot_iff r _).mpr hfree⟩

theorem takeRequest_self (h : (s.chan c).st ≠ .idle ∨ r.sqHead = r.sqTail ∨
    ¬ r.unconsumed + (if (s.chan c).reserved then 1 else 0) < r.cqSize) : takeRequest s c = s := by
  unfold takeRequest
  dsimp only
  rw [hr]
  refine if_neg ?_
  rintro ⟨-, hst, hrec, hslot⟩
  rcases h with h | h | h
  · exact h hst
  · exact (hasRecord_iff r).mp hrec h
  · exact h ((hasSlot_iff r _).mp hslot)

/-- The request is in the script record, and the SQ head past it (R4). -/
def requestCopied (s : State) (c : ChanId) (r : RingPair) (sc : Script) (q : Record32) : State :=
  s.setChan c { s.chan c with data := none, rings := some r.advanceHead, script := some (copyRequest q sc) }

section
variable {sc : Script} (q : Record32) (hs : (s.chan c).script = some sc)
include hs

theorem requestRead_eq : requestRead q (dataOver s c) c = if (s.chan c).st = .aborting then abortCheck (requestCopied s c r sc q) c
    else checkRequest q (requestCopied s c r sc q) c := by
  have hcopied : ((dataOver s c).modRings c RingPair.advanceHead).modScript c (copyRequest q) = requestCopied s c r sc q := by
    rw [modRings_eq, modScript_eq, chan_setChan_self, setChan_setChan, dataOver_chan, dataOver, setChan_setChan]
    dsimp only
    rw [hr, hs]
    rfl
  have hst : ((requestCopied s c r sc q).chan c).st = (s.chan c).st := by rw [requestCopied, chan_setChan_self]
  unfold requestRead
  rw [hcopied]
  dsimp only
  rw [hst]

omit hr hs in
theorem checkRequest_passes (hok : RequestRecord.ok q = true) : checkRequest q (requestCopied s c r sc q) c =
    goOn (s.setChan c { s.chan c with
      data := none, rings := some r.advanceHead,
      script := some { copyRequest q sc with checked := true, listPos := q.extractLsb' 64 64 } }) c := by
  unfold checkRequest
  rw [if_pos hok, requestCopied, modScript_eq, chan_setChan_self, setChan_setChan]
  rfl

omit hr hs in
theorem checkRequest_fails (hok : ¬ RequestRecord.ok q = true) : checkRequest q (requestCopied s c r sc q) c =
    endScript (requestCopied s c r sc q) c .badStep 1 0 := if_neg hok

end

end

/-! ## The read of a request ends (R4, R28) -/

section
variable {s : State} {c : ChanId} {a : HostAddr} {q : Record32} (hready : s.ready = true)
include hready

section
variable (hd : (s.chan c).data = some (.requestRead a))
include hd

theorem endRequestRead_copies {sc : Script} (hs : (s.chan c).script = some sc) :
    endRequestRead s c (some q) = settle (requestRead q (dataOver s c) c) := by
  have hs' : ((dataOver s c).chan c).script = some sc := by rw [dataOver_chan]; exact hs
  unfold endRequestRead
  rw [hd, clearData_eq]
  dsimp only
  rw [if_neg (by rw [show (dataOver s c).ready = true from hready]; simp), hs']

theorem endRequestRead_fails {sc : Script} (hs : (s.chan c).script = some sc) :
    endRequestRead s c none = settle (channelFault (dataOver s c) c .requestReadFault true) := by
  have hs' : ((dataOver s c).chan c).script = some sc := by rw [dataOver_chan]; exact hs
  unfold endRequestRead
  rw [hd, clearData_eq]
  dsimp only
  rw [if_neg (by rw [show (dataOver s c).ready = true from hready]; simp), hs']

theorem endRequestRead_discards (q : Option Record32) (hs : (s.chan c).script = none) :
    endRequestRead s c q = settle (goOn (dataOver s c) c) := by
  have hs' : ((dataOver s c).chan c).script = none := by rw [dataOver_chan]; exact hs
  unfold endRequestRead
  rw [hd, clearData_eq]
  dsimp only
  rw [if_neg (by rw [show (dataOver s c).ready = true from hready]; simp), hs']

end

section
variable (hd : (s.chan c).data = some (.flushRead a))
include hd

theorem endFlushRead_eq (q : Option Record32) : endFlushRead s c q =
    if (s.chan c).st = .aborting then
      q.elim (settle (channelFault (dataOver s c) c .requestReadFault true)) fun q => flushRead q (dataOver s c) c
    else settle (goOn (dataOver s c) c) := by
  unfold endFlushRead
  rw [hd, clearData_eq]
  dsimp only
  rw [if_neg (by rw [show (dataOver s c).ready = true from hready]; simp), dataOver_chan]
  cases q <;> rfl

omit hready hd in
theorem flushRead_eq {r : RingPair} (hr : (s.chan c).rings = some r) : flushRead q (dataOver s c) c = s.setChan c { s.chan c with
    rings := some r.advanceHead, wait := .hostWrite,
    data := some (.completion { addr := hostAdd r.cqBase (16 * r.cqTail), bytes := flushedBytes q r.advanceHead }) } := by
  have hhead : (dataOver s c).modRings c RingPair.advanceHead =
      s.setChan c { s.chan c with data := none, rings := some r.advanceHead } := by
    rw [modRings_eq, dataOver_chan, dataOver, setChan_setChan]
    dsimp only
    rw [hr]
    rfl
  unfold flushRead
  rw [hhead]
  dsimp only
  rw [chan_setChan_self]
  dsimp only
  rw [startData, modChan_eq, chan_setChan_self, setChan_setChan]
  rfl

end

end

/-- Settles O48, by whether the read succeeds, the record passes its check, and the state of the channel. -/
theorem requestsArrive : Obligations.RequestsArrive := by
  intro s c r hready hr free head none3
  refine ⟨fun hst hrec hfree => ?_, fun h => ?_, fun a sc hd hs => ⟨?_, fun q => ?_⟩, fun a q hd hs => ?_, fun a q hd hst => ?_,
    fun a hd hst => ⟨?_, fun q => ?_⟩⟩
  · exact congrArg Host.Outcome.next (takeRequest_takes hready hr hst hrec hfree)
  · exact congrArg Host.Outcome.next (takeRequest_self hr h)
  · exact congrArg Host.Outcome.next (endRequestRead_fails hready hd hs)
  · intro copied ch list good
    have hend : exec (.requestReadEnd c (some q)) s = .next (settle (if (s.chan c).st = .aborting then
        abortCheck (requestCopied s c r sc q) c else checkRequest q (requestCopied s c r sc q) c)) := by
      rw [← requestRead_eq hr q hs]
      exact congrArg Host.Outcome.next (endRequestRead_copies hready hd hs)
    have passes (hst : (s.chan c).st ≠ .aborting) (hg : good) : exec (.requestReadEnd c (some q)) s = .next (settle (goOn
        (s.setChan c { ch with script := some { copied with checked := true, listPos := list } }) c)) := by
      rw [hend, if_neg hst, checkRequest_passes q ((requestOk_iff q).mpr hg)]
      rfl
    refine ⟨fun hst hf hc hw he hg => ?_, fun hst hg => passes (by rw [hst]; simp) hg, fun hst hg => ?_, fun hst => ?_⟩
    · let x : Channel := { ch with script := some { copied with checked := true, listPos := list } }
      have hx : (s.setChan c x).chan c = x := chan_setChan_self s c x
      rw [passes (by rw [hst]; simp) hg, goOn_empty (s := s.setChan c x) (sc := { copied with checked := true, listPos := list })
        (by rw [hx]; exact hst) (by rw [hx]) rfl he hc hw (by rw [hx]; exact hf), hx, setChan_setChan]
    · rw [hend, if_neg hst, checkRequest_fails q (mt (requestOk_iff q).mp hg)]
      rfl
    · have hst' : ((requestCopied s c r sc q).chan c).st = .aborting := by rw [requestCopied, chan_setChan_self]; exact hst
      rw [hend, if_pos hst, ← goOn_aborting hst']
      rfl
  · exact congrArg Host.Outcome.next (endRequestRead_discards hready hd q hs)
  · exact congrArg Host.Outcome.next ((endFlushRead_eq hready hd q).trans (if_neg hst))
  · exact congrArg Host.Outcome.next ((endFlushRead_eq hready hd none).trans (if_pos hst))
  · exact congrArg Host.Outcome.next (((endFlushRead_eq hready hd (some q)).trans (if_pos hst)).trans (flushRead_eq hr))

end Sys2Proof.Machine
end

section
/-! PROOF. Fetches and the host transfers of a step end, in each state of the channel (R2, R10, R41, R43, R53, R54, R64). -/

namespace Sys2Proof.Machine

open Sys2Proof.Safety

/-! ## A fetch ends (R10) -/

/-- The fetch in flight of the channel is over. -/
def fetchOver (s : State) (c : ChanId) : State := s.setChan c { s.chan c with fetch := none }

theorem fetchOver_chan (s : State) (c : ChanId) : (fetchOver s c).chan c = { s.chan c with fetch := none } := chan_setChan_self ..

section
variable {s : State} {c : ChanId} {f : Fetch} (hf : (s.chan c).fetch = some f)
include hf

theorem endFetch_reset (hready : s.ready = false) (r : Option (BitVec 512)) : endFetch s c r = waitOver (fetchOver s c) c := by
  unfold endFetch
  rw [hf]
  exact if_pos (by rw [modChan_eq, setChan_ready, hready]; rfl)

variable (hready : s.ready = true)
include hready

theorem endFetch_eq (r : Option (BitVec 512)) : endFetch s c r = if f.discard = false ∧ ((s.chan c).st = .running ∨ (s.chan c).st = .pausing)
    then settle (goOn ((fetchOver s c).modScript c (joinWindow f r)) c) else settle (goOn (fetchOver s c) c) := by
  have hover : s.modChan c (fun ch => { ch with fetch := none }) = fetchOver s c := rfl
  unfold endFetch
  rw [hf, hover]
  dsimp only
  rw [if_neg (by rw [show (fetchOver s c).ready = true from hready]; simp), fetchOver_chan]
  refine if_congr ?_ rfl rfl
  simp

theorem endFetch_joins {sc : Script} (hs : (s.chan c).script = some sc) (hd : f.discard = false)
    (hst : (s.chan c).st = .running ∨ (s.chan c).st = .pausing) (r : Option (BitVec 512)) : endFetch s c r =
      settle (goOn (s.setChan c { s.chan c with fetch := none, script := some (joinWindow f r sc) }) c) := by
  rw [endFetch_eq hf hready, if_pos ⟨hd, hst⟩, modScript_eq, fetchOver_chan, fetchOver, setChan_setChan]
  dsimp only
  rw [hs]
  rfl

theorem endFetch_discards (h : f.discard = true ∨ (s.chan c).st ≠ .running ∧ (s.chan c).st ≠ .pausing)
    (r : Option (BitVec 512)) : endFetch s c r = settle (goOn (fetchOver s c) c) := by
  rw [endFetch_eq hf hready, if_neg]
  rintro ⟨hd, hst⟩
  rcases h with h | ⟨h1, h2⟩
  · cases hd.symm.trans h
  · exact hst.elim h1 h2

end

/-! ## A data transfer of a step ends (R41, R43, R53, R54, R64) -/

section
variable {s : State} {c : ChanId} {act : State → Step → State}

theorem endStepData_reset (hready : s.ready = false) : endStepData s c act = waitOver (dataOver s c) c := by
  unfold endStepData
  rw [clearData_eq]
  exact if_pos (by rw [show (dataOver s c).ready = false from hready]; rfl)

section
variable (hready : s.ready = true)
include hready

theorem endStepData_ended {sc : Script} {e : Ending} (hs : (s.chan c).script = some sc) (he : sc.ending = some e) :
    endStepData s c act = settle (startCompletion (dataOver s c) c) := by
  have hs' : ((dataOver s c).chan c).script = some sc := by rw [dataOver_chan]; exact hs
  unfold endStepData
  rw [clearData_eq]
  dsimp only
  rw [if_neg (by rw [show (dataOver s c).ready = true from hready]; simp), hs']
  exact congrArg settle (if_pos (by rw [he]; rfl))

theorem endStepData_off (h : (s.chan c).script = none ∨ Unended s c ∧ (s.chan c).st ≠ .running ∧ (s.chan c).st ≠ .pausing) :
    endStepData s c act = settle (goOn (dataOver s c) c) := by
  have hscript : ((dataOver s c).chan c).script = (s.chan c).script := by rw [dataOver_chan]
  unfold endStepData
  rw [clearData_eq]
  dsimp only
  rw [if_neg (by rw [show (dataOver s c).ready = true from hready]; simp), hscript]
  rcases h with hs | ⟨⟨sc, hs, he⟩, h1, h2⟩
  · rw [hs]
  · rw [hs]
    refine congrArg settle ((if_neg (by rw [he]; simp)).trans (if_neg ?_))
    rw [dataOver_chan]
    exact not_or.mpr ⟨h1, h2⟩

theorem endStepData_acts {sc : Script} {st : Step} (hin : InStep s c sc st)
    (hst : (s.chan c).st = .running ∨ (s.chan c).st = .pausing) : endStepData s c act = settle (act (dataOver s c) st) := by
  obtain ⟨hs, he, hc⟩ := hin
  have hs' : ((dataOver s c).chan c).script = some sc := by rw [dataOver_chan]; exact hs
  have hst' : ((dataOver s c).chan c).st = .running ∨ ((dataOver s c).chan c).st = .pausing := by rw [dataOver_chan]; exact hst
  unfold endStepData
  rw [clearData_eq]
  dsimp only
  rw [if_neg (by rw [show (dataOver s c).ready = true from hready]; simp), hs']
  dsimp only
  rw [if_neg (by rw [he]; simp), if_pos hst', hc]

end

/-- The command of the data transfer in flight ends it. -/
theorem stepData_ends {d : Data} {i : Instr} (hd : (s.chan c).data = some d)
    (h : (∃ w ok, d = .readWrite w ∧ i = .readHostWriteEnd c ok) ∨ (∃ w ok, d = .slotWrite w ∧ i = .blockInSlotWriteEnd c ok) ∨
      (∃ a v, d = .slotRead a ∧ i = .blockOutSlotReadEnd c v)) : ∃ act, exec i s = .next (endStepData s c act) := by
  rcases h with ⟨w, ok, rfl, rfl⟩ | ⟨w, ok, rfl, rfl⟩ | ⟨a, v, rfl, rfl⟩
  · exact ⟨readWritten ok c, congrArg Host.Outcome.next (by rw [hd])⟩
  · exact ⟨slotWritten ok c, congrArg Host.Outcome.next (by rw [hd])⟩
  · exact ⟨slotRead v c, congrArg Host.Outcome.next (by rw [hd])⟩

end

/-- A completion write that waited for a step's data transfer starts (R64). -/
theorem startCompletion_dataOver {s : State} {c : ChanId} {sc : Script} {r : RingPair} {e : Ending}
    (hs : (s.chan c).script = some sc) (hr : (s.chan c).rings = some r) (he : sc.ending = some e) :
    startCompletion (dataOver s c) c = s.setChan c { s.chan c with
      wait := if (s.chan c).st = .running ∨ (s.chan c).st = .pausing ∨ (s.chan c).st = .aborting then .hostWrite
        else (s.chan c).wait,
      data := some (endWrite sc r e) } := by
  have hch := dataOver_chan s c
  rw [startCompletion_eq (by rw [hch]; exact hs) (by rw [hch]; exact hr) he, hch, dataOver, setChan_setChan]
  dsimp only
  rw [if_pos rfl]
  exact congrArg (s.setChan c) (congrArg (fun w : WaitReason => { s.chan c with wait := w, data := some (endWrite sc r e) })
    (if_congr (and_iff_right rfl) rfl rfl))

/-! ## A step goes on to its next unit (R21, R52) -/

section
variable {s : State} {c : ChanId} {sc : Script} {st : Step} (hs : (s.chan c).script = some sc) (hc : sc.current = some st)

theorem setProgress_st (s : State) (c : ChanId) (p : Progress) : ((s.setProgress c p).chan c).st = (s.chan c).st := by
  rw [setProgress_eq, chan_setChan_self]

include hs

theorem ordinalOf_script : ordinalOf s c = sc.ordinals := by unfold ordinalOf; rw [hs]

theorem failStep_script (e : Status) (d : Detail) : failStep s c e d = endScript s c e sc.ordinals d := by
  rw [failStep, ordinalOf_script hs]

include hc

theorem continue_blockIn (hst : (s.chan c).st = .running ∨ (s.chan c).st = .pausing) (d next : Nat) :
    let t := s.setProgress c (.blockIn d next none)
    continueStep t c = if (s.chan c).st = .pausing then goOn t c
      else if 0xFFFFFF < next then endScript t c .regionMiss sc.ordinals (BitVec.ofNat 32 d)
      else if s.own.mode = .isolated then endScript t c .portIsolated sc.ordinals (BitVec.ofNat 32 d)
      else joinSet t c (request s c { st with progress := .blockIn d next none } .blockIn (BitVec.ofNat 24 next) none) := by
  intro t
  have ht : ((s.setProgress c (.blockIn d next none)).chan c).st = (s.chan c).st := setProgress_st s c _
  have hord : ordinalOf t c = sc.ordinals := by unfold ordinalOf; rw [setProgress_script hs hc]
  unfold continueStep
  rcases hst with hst | hst
  · rw [if_pos (ht.trans hst), if_neg (by rw [hst]; simp), act_of_blockIn (setProgress_step? hs hc _) rfl, hord]
    by_cases hn : next ≤ 0xFFFFFF
    · rw [if_pos hn, if_neg (Nat.not_lt.mpr hn), present_after hs hc]
      rfl
    · rw [if_neg hn, if_pos (Nat.not_le.mp hn)]
  · rw [if_neg (by rw [ht, hst]; simp), if_pos hst]

theorem continue_blockOut (hst : (s.chan c).st = .running ∨ (s.chan c).st = .pausing) (d : Nat) {next : Nat} (v : Value) :
    let t := s.setProgress c (.blockOut d next (some v))
    continueStep t c = if (s.chan c).st = .pausing then goOn t c
      else if s.own.mode = .isolated then endScript t c .portIsolated sc.ordinals (BitVec.ofNat 32 d)
      else joinSet t c (request s c { st with progress := .blockOut d next (some v) } .blockOut (BitVec.ofNat 24 next) (some v)) := by
  intro t
  have ht : ((s.setProgress c (.blockOut d next (some v))).chan c).st = (s.chan c).st := setProgress_st s c _
  unfold continueStep
  rcases hst with hst | hst
  · rw [if_pos (ht.trans hst), if_neg (by rw [hst]; simp), act_of_blockOut_value (setProgress_step? hs hc _) rfl,
      present_after hs hc]
    rfl
  · rw [if_neg (by rw [ht, hst]; simp), if_pos hst]

end

theorem slotWritten_fails {s : State} {c : ChanId} {st : Step} {d next : Nat} {v : Option Value}
    (hp : st.progress = .blockIn d next v) : slotWritten false c s st = failStep s c .hostFault (BitVec.ofNat 32 d) := by
  unfold slotWritten
  rw [hp]
  exact if_pos rfl

theorem slotWritten_moves {s : State} {c : ChanId} {st : Step} {d next : Nat} {v : Option Value}
    (hp : st.progress = .blockIn d next v) : slotWritten true c s st =
      if d + 1 = StepRecord.count st.bits then completeStep (s.setProgress c (.blockIn (d + 1) next none)) c
      else continueStep (s.setProgress c (.blockIn (d + 1) next none)) c := by
  unfold slotWritten
  rw [hp]
  exact if_neg Bool.false_ne_true

theorem slotRead_fails {s : State} {c : ChanId} {st : Step} {d next : Nat} {v : Option Value}
    (hp : st.progress = .blockOut d next v) : slotRead none c s st = failStep s c .hostFault (BitVec.ofNat 32 d) := by
  unfold slotRead
  rw [hp]

theorem slotRead_moves {s : State} {c : ChanId} {st : Step} {d next : Nat} {v : Option Value}
    (hp : st.progress = .blockOut d next v) (x : Value) :
    slotRead (some x) c s st = continueStep (s.setProgress c (.blockOut d next (some x))) c := by
  unfold slotRead
  rw [hp]

/-! ## During a bridge reset (R207) -/

section
variable {s : State} {c : ChanId} (hready : s.ready = false)
include hready

theorem endRequestRead_reset {a : HostAddr} (hd : (s.chan c).data = some (.requestRead a)) (q : Option Record32) :
    endRequestRead s c q = waitOver (dataOver s c) c := by
  unfold endRequestRead
  rw [hd, clearData_eq]
  exact if_pos (by rw [show (dataOver s c).ready = false from hready]; rfl)

theorem endFlushRead_reset {a : HostAddr} (hd : (s.chan c).data = some (.flushRead a)) (q : Option Record32) :
    endFlushRead s c q = waitOver (dataOver s c) c := by
  unfold endFlushRead
  rw [hd, clearData_eq]
  exact if_pos (by rw [show (dataOver s c).ready = false from hready]; rfl)

theorem endCompletion_reset {w : HostWrite} (hd : (s.chan c).data = some (.completion w)) (ok : Bool) :
    endCompletion s c ok = waitOver (dataOver s c) c := by
  unfold endCompletion
  rw [hd, clearData_eq]
  exact if_pos (by rw [show (dataOver s c).ready = false from hready]; rfl)

end

/-- The request a step would present is not changed by the end of a data transfer. -/
theorem request_dataOver (s : State) (c : ChanId) (st : Step) (p : Purpose) (a : BusAddr) (v : Option Value) :
    request (dataOver s c) c st p a v = request s c st p a v := by
  have hmark : lockMark (dataOver s c) c st = lockMark s c st := by
    unfold lockMark
    rw [dataOver_chan]
    rfl
  unfold request
  rw [hmark]
  rfl

/-- Settles O49, by the transfer, whether it is discarded, and the state of the channel. -/
theorem transfersEnd : Obligations.TransfersEnd := by
  refine ⟨fun s c f sc hready hf hs hst => ?_, fun s c f hf => ?_, fun s c d i hd hi => ?_, fun s c hready => ?_,
    fun s c sc st hready hin hst => ?_⟩
  · intro joined hd
    exact ⟨fun bits => congrArg Host.Outcome.next (endFetch_joins hf hready hs hd hst (some bits)),
      congrArg Host.Outcome.next (endFetch_joins hf hready hs hd hst none)⟩
  · intro ended
    exact ⟨fun hready h r => congrArg Host.Outcome.next (endFetch_discards hf hready h r),
      fun hready r => congrArg Host.Outcome.next (endFetch_reset hf hready r)⟩
  · obtain ⟨act, hact⟩ := stepData_ends hd hi
    refine ⟨fun hready => ⟨fun sc e r hs he hr => ?_, fun h => ?_⟩, fun hready => ?_⟩
    · rw [hact, endStepData_ended hready hs he, startCompletion_dataOver hs hr he]
      rfl
    · rw [hact, endStepData_off hready h]
    · rw [hact, endStepData_reset hready]
  · exact ⟨fun a q hd => congrArg Host.Outcome.next (endRequestRead_reset hready hd q),
      fun a q hd => congrArg Host.Outcome.next (endFlushRead_reset hready hd q),
      fun w ok hd => congrArg Host.Outcome.next (endCompletion_reset hready hd ok)⟩
  · intro goes
    obtain ⟨hs, -, hc⟩ := id hin
    have hs' : ((dataOver s c).chan c).script = some sc := by rw [dataOver_chan]; exact hs
    have hst' : ((dataOver s c).chan c).st = .running ∨ ((dataOver s c).chan c).st = .pausing := by rw [dataOver_chan]; exact hst
    refine ⟨fun w hd => ?_, fun w d next v hd hp => ?_, fun a d next v hd hp hnext => ?_⟩
    · have acts (ok : Bool) : exec (.readHostWriteEnd c ok) s = .next (settle (readWritten ok c (dataOver s c) st)) := by
        rw [← endStepData_acts hready hin hst]
        exact congrArg Host.Outcome.next (by rw [hd])
      exact ⟨(by rw [acts, readWritten, if_pos rfl]), (by rw [acts, readWritten, if_neg Bool.false_ne_true, failStep_script hs'])⟩
    · have acts (ok : Bool) : exec (.blockInSlotWriteEnd c ok) s = .next (settle (slotWritten ok c (dataOver s c) st)) := by
        rw [← endStepData_acts hready hin hst]
        exact congrArg Host.Outcome.next (by rw [hd])
      refine ⟨?_, ?_⟩
      · rw [acts, slotWritten_fails hp, failStep_script hs']
      · intro moved
        refine ⟨fun hlast => ?_, fun hmore => ?_⟩
        · rw [acts, slotWritten_moves hp, if_pos hlast]
        · rw [acts, slotWritten_moves hp, if_neg hmore, continue_blockIn hs' hc hst', request_dataOver, dataOver_chan]
          rfl
    · have acts (v : Option Value) : exec (.blockOutSlotReadEnd c v) s = .next (settle (slotRead v c (dataOver s c) st)) := by
        rw [← endStepData_acts hready hin hst]
        exact congrArg Host.Outcome.next (by rw [hd])
      refine ⟨?_, fun x => ?_⟩
      · rw [acts, slotRead_fails hp, failStep_script hs']
      · rw [acts, slotRead_moves hp, continue_blockOut hs' hc hst', request_dataOver, dataOver_chan]
        simp only [goes]
        rw [if_neg (Nat.not_lt.mpr hnext)]
        rfl

end Sys2Proof.Machine
end

section
/-! PROOF. A completion is posted, or its write fails, in each state of the channel (R15, R16, R27). -/

namespace Sys2Proof.Machine

open Sys2Proof.Safety

/-! ## The channel as its completion is posted (R15) -/

/-- The completion is posted: the ring has moved on, the reservation is released, and no script is active. -/
def postedChan (ch : Channel) (r : RingPair) : Channel :=
  { ch with data := none, script := none, reserved := false, rings := some r.post }

theorem isOk_iff (st : Status) : st.isOk = false ↔ st ≠ .ok ∧ st ≠ .okWarn := by cases st <;> simp [Status.isOk]

theorem asksVector_iff (ch : Channel) (sc : Script) (e : Ending) : asksVector ch sc e = true ↔
    sc.notify = true ∨ ch.notifyAll = true ∨ (e.status ≠ .ok ∧ e.status ≠ .okWarn) := by
  rw [← isOk_iff, asksVector]
  simp only [Bool.or_eq_true, Bool.not_eq_true', or_assoc]

theorem askVector_setChan (s : State) (c : ChanId) (x : Channel) (v : VectorId) :
    askVector (s.setChan c x) v = (askVector s v).setChan c x := by
  rw [askVector_eq, askVector_eq]
  rfl

theorem enterIdle_posted (ch : Channel) (r : RingPair) : enterIdle (postedChan ch r) = { postedChan ch r with
    st := .idle,
    wait := if r.sqHead ≠ r.sqTail ∧ r.cqSize ≤ r.unconsumed + 1 then .completionSpace else .none } :=
  (enterIdle_eq (r := r.post) rfl).trans rfl

theorem adminDone_notWaiting {s : State} {on : AdminWait} (st : AdminStatus) (d : Detail) (h : adminWaitsOn s on = false) :
    adminDone s on st d = s :=
  adminDone_other st d fun id hid => by
    cases h.symm.trans (adminWaitsOn_of_waiting hid)

/-! ## The state a posted completion gives (R16) -/

section
variable {s : State} {c : ChanId} (sc : Script) (e : Ending)

theorem afterPosted_running (hst : (s.chan c).st = .running) (ha : (s.chan c).abort = none) :
    afterPosted s c sc e = adminDone (s.setChan c
      (if sc.haltOnError = true ∧ e.status ≠ .ok ∧ e.status ≠ .okWarn then enterPaused (s.chan c) else enterIdle (s.chan c)))
      (.abort c) .ok 0 := by
  have hhalt : (!e.status.isOk && sc.haltOnError) = true ↔ sc.haltOnError = true ∧ e.status ≠ .ok ∧ e.status ≠ .okWarn := by
    rw [← isOk_iff, Bool.and_eq_true, Bool.not_eq_true', and_comm]
  unfold afterPosted
  dsimp only
  rw [hst, ha]
  refine congrArg (fun x => adminDone (s.setChan c x) (.abort c) .ok 0) ?_
  by_cases h : (!e.status.isOk && sc.haltOnError) = true
  · rw [if_pos h, if_pos (hhalt.mp h)]
  · rw [if_neg h, if_neg (mt hhalt.mpr h)]

theorem afterPosted_pausing (hst : (s.chan c).st = .pausing) : afterPosted s c sc e = goOn s c := by
  rw [goOn_pausing hst]
  unfold afterPosted
  dsimp only
  rw [hst]

theorem afterPosted_paused (hst : (s.chan c).st = .paused) (ha : (s.chan c).abort = none) : afterPosted s c sc e =
    if adminWaitsOn s (.start c) then adminDone (s.setChan c (enterIdle (s.chan c))) (.start c) .ok 0
    else adminDone (s.setChan c (enterPaused (s.chan c))) (.abort c) .ok 0 := by
  unfold afterPosted
  dsimp only
  rw [hst, ha]
  rfl

theorem afterPosted_aborting {p : Bool} (hst : (s.chan c).st = .aborting) (ha : (s.chan c).abort = some (.current p)) :
    afterPosted s c sc e = adminDone (s.setChan c
      { (if p then enterPaused (s.chan c) else enterIdle (s.chan c)) with abort := none }) (.abort c) .ok 0 := by
  unfold afterPosted
  dsimp only
  rw [hst, ha]
  rfl

theorem afterPosted_flush {b n : Nat} (hst : (s.chan c).st = .running ∨ (s.chan c).st = .paused ∨ (s.chan c).st = .aborting)
    (ha : (s.chan c).abort = some (.flush b n)) : afterPosted s c sc e = flushNext s c := by
  unfold afterPosted
  dsimp only
  rcases hst with hst | hst | hst <;> rw [hst, ha]

end

/-- The flush goes on in ABORTING, from whatever state it finds (R27). -/
theorem flushNext_eq (s : State) (c : ChanId) (x : Channel) : flushNext (s.setChan c x) c =
    flushOn (s.setChan c { x with st := .aborting, wait := .none }) c := by
  unfold flushNext
  rw [modChan_eq, chan_setChan_self, setChan_setChan]

section
variable (s : State) (c : ChanId) (ch : Channel) (r : RingPair) (b n : Nat)

/-- The channel posted, with the count of its flush. -/
def flushChan (ch : Channel) (r : RingPair) (b n : Nat) : Channel := { postedChan ch r with abort := some (.flush b n) }

theorem flushNext_done (hb : r.sqHead = b) {id : BitVec 16} (hw : s.admin.progress = .waiting id (.flush c)) :
    flushNext (s.setChan c (flushChan ch r b n)) c = adminAnswer
      (s.setChan c { flushChan ch r b n with st := .stopped, wait := .none, abort := none }) id .ok (BitVec.ofNat 32 n) := by
  rw [flushNext_eq, flushOn_done (r := r.post) (b := b) (p := n) (by rw [chan_setChan_self]; rfl) (by rw [chan_setChan_self]; rfl) hb,
    chan_setChan_self, setChan_setChan, adminDone_waiting (id := id) _ _ (by rw [setChan_admin, hw])]

theorem flushNext_reads (hb : r.sqHead ≠ b) (hslot : r.unconsumed + 1 < r.cqSize) :
    flushNext (s.setChan c (flushChan ch r b n)) c = s.setChan c { flushChan ch r b n with
      st := .aborting, wait := .fetch, reserved := true, data := some (.flushRead (hostAdd r.sqBase (32 * r.sqHead))) } := by
  rw [flushNext_eq, flushOn_reads (r := r.post) (b := b) (p := n) (by rw [chan_setChan_self]; rfl) (by rw [chan_setChan_self]; rfl) hb
    (by rw [chan_setChan_self]; exact hslot), chan_setChan_self, setChan_setChan]
  rfl

theorem flushNext_waits (hb : r.sqHead ≠ b) (hslot : r.cqSize ≤ r.unconsumed + 1) (ha : s.accessOf c = false) :
    flushNext (s.setChan c (flushChan ch r b n)) c = s.setChan c { flushChan ch r b n with
      st := .aborting, wait := if ch.fetch.isSome then .fetch else .none } := by
  have hch := chan_setChan_self s c { flushChan ch r b n with st := .aborting, wait := .none }
  have hacc : (s.setChan c { flushChan ch r b n with st := .aborting, wait := .none }).accessOf c = false := ha
  have hwindow : windowEmpty { flushChan ch r b n with st := .aborting, wait := .none } = true := rfl
  rw [flushNext_eq, flushOn_waits (r := r.post) (b := b) (p := n) (by rw [hch]; rfl) (by rw [hch]; rfl) hb
    (by rw [hch]; exact hslot), stopWait_none hacc (by rw [hch]; rfl), hch, hwindow, Bool.and_true, setWait_eq, hch, setChan_setChan]
  rfl

end

/-! ## The write of a completion ends (R15) -/

section
variable {s : State} {c : ChanId} {w : HostWrite} {r : RingPair} (hready : s.ready = true)
  (hd : (s.chan c).data = some (.completion w))
include hready hd

theorem endCompletion_fails (hst : (s.chan c).st ≠ .faulted) :
    endCompletion s c false = settle (channelFault (dataOver s c) c .completionWriteFault true) := by
  unfold endCompletion
  rw [hd, clearData_eq]
  dsimp only
  rw [if_neg (by rw [show (dataOver s c).ready = true from hready]; simp), dataOver_chan]
  exact (if_neg hst).trans (if_pos rfl)

theorem endCompletion_faulted (hst : (s.chan c).st = .faulted) (ok : Bool) : endCompletion s c ok = goOn (dataOver s c) c := by
  unfold endCompletion
  rw [hd, clearData_eq]
  dsimp only
  rw [if_neg (by rw [show (dataOver s c).ready = true from hready]; simp), dataOver_chan]
  exact if_pos hst

variable (hst : (s.chan c).st ≠ .faulted)
include hst

theorem endCompletion_script {sc : Script} {e : Ending} (hs : (s.chan c).script = some sc) (he : sc.ending = some e) :
    endCompletion s c true = postScript (dataOver s c) c sc e := by
  have hch := dataOver_chan s c
  unfold endCompletion
  rw [hd, clearData_eq]
  dsimp only
  rw [if_neg (by rw [show (dataOver s c).ready = true from hready]; simp), if_neg (by rw [hch]; exact hst), if_neg (by simp), hch]
  dsimp only
  rw [hs]
  dsimp only
  rw [he]

theorem endCompletion_flushed (hs : (s.chan c).script = none) : endCompletion s c true = postFlushed (dataOver s c) c := by
  have hch := dataOver_chan s c
  unfold endCompletion
  rw [hd, clearData_eq]
  dsimp only
  rw [if_neg (by rw [show (dataOver s c).ready = true from hready]; simp), if_neg (by rw [hch]; exact hst), if_neg (by simp), hch]
  dsimp only
  rw [hs]

end

/-- A posted completion that asks for its vector (R15). -/
def postAsked (s : State) (c : ChanId) (asks : Bool) : State := if asks then askVector s (chanVector c) else s

section
variable (s : State) (c : ChanId)

theorem postAsked_eq (asks : Bool) : postAsked s c asks = askVector s (chanVector c) ∨ postAsked s c asks = s := by
  cases asks
  · exact .inr rfl
  · exact .inl rfl

theorem postAsked_admin (asks : Bool) : (postAsked s c asks).admin = s.admin := by
  rcases postAsked_eq s c asks with h | h
  · rw [h, askVector_eq]
    rfl
  · rw [h]

theorem postAsked_accessOf (asks : Bool) : (postAsked s c asks).accessOf c = s.accessOf c := by
  rcases postAsked_eq s c asks with h | h
  · rw [h, askVector_eq]
    rfl
  · rw [h]

theorem postAsked_setChan (asks : Bool) (x : Channel) : postAsked (s.setChan c x) c asks = (postAsked s c asks).setChan c x := by
  cases asks
  · rfl
  · exact askVector_setChan s c x (chanVector c)

variable (sc : Script) (e : Ending)

variable {r : RingPair} (hr : (s.chan c).rings = some r)
include hr

theorem dataOver_post : (dataOver s c).modRings c RingPair.post = s.setChan c { s.chan c with data := none, rings := some r.post } := by
  rw [modRings_eq, dataOver_chan, dataOver, setChan_setChan]
  dsimp only
  rw [hr]
  rfl

theorem postScript_eq : postScript (dataOver s c) c sc e =
    afterPosted ((postAsked s c (asksVector (s.chan c) sc e)).setChan c (postedChan (s.chan c) r)) c sc e := by
  have hposted : ((dataOver s c).modRings c RingPair.post).modChan c (fun ch => { ch with reserved := false, script := none }) =
      s.setChan c (postedChan (s.chan c) r) := by
    rw [dataOver_post s c hr, modChan_eq, chan_setChan_self, setChan_setChan]
    rfl
  have hasks : asksVector ((dataOver s c).chan c) sc e = asksVector (s.chan c) sc e := by rw [dataOver_chan]; rfl
  unfold postScript
  dsimp only
  rw [hposted, hasks, ← postAsked_setChan, postAsked]

theorem postFlushed_eq {b n : Nat} (ha : (s.chan c).abort = some (.flush b n)) (hs : (s.chan c).script = none) : postFlushed (dataOver s c) c =
    flushNext ((askVector s (chanVector c)).setChan c (flushChan (s.chan c) r b (n + 1))) c := by
  unfold postFlushed
  rw [dataOver_post s c hr, modChan_eq, chan_setChan_self, setChan_setChan]
  dsimp only
  rw [ha, hs, askVector_setChan]
  rfl

end

/-- Settles O50, by the success of the write, and the state and the abort of the channel. -/
theorem completionPosted : Obligations.CompletionPosted := by
  intro s c w r hready hd hr tail r' ch idle paused vector
  refine ⟨fun hst => congrArg Host.Outcome.next (endCompletion_fails hready hd hst),
    fun hst ok => congrArg Host.Outcome.next (endCompletion_faulted hready hd hst ok), ?_⟩
  intro flushed
  have flushes (t : State) (b n : Nat) (hadmin : t.admin = s.admin) (hacc : t.accessOf c = s.accessOf c) :
      flushed t b n (flushNext (t.setChan c (flushChan (s.chan c) r b n)) c) :=
    ⟨fun id hb hw => flushNext_done t c (s.chan c) r b n hb (by rw [hadmin, hw]),
      fun hb => ⟨fun hslot => flushNext_reads t c (s.chan c) r b n hb hslot,
        fun hslot ha => flushNext_waits t c (s.chan c) r b n hb hslot (hacc.trans ha)⟩⟩
  refine ⟨fun sc e hs he => ?_, fun b n hst hs ha => ?_⟩
  · intro asked after
    let t := postAsked s c (asksVector (s.chan c) sc e)
    let u := t.setChan c ch
    have hu : u.chan c = ch := chan_setChan_self ..
    have hadmin : t.admin = s.admin := postAsked_admin s c _
    have hasks (t : State) : asked t = postAsked t c (asksVector (s.chan c) sc e) :=
      if_congr (asksVector_iff (s.chan c) sc e).symm rfl rfl
    have hasked (x : Channel) : asked (s.setChan c x) = t.setChan c x := (hasks _).trans (postAsked_setChan s c _ x)
    have hset (x : Channel) : u.setChan c x = t.setChan c x := setChan_setChan ..
    have hidle : enterIdle ch = idle := enterIdle_posted (s.chan c) r
    have hnext (hst : (s.chan c).st ≠ .faulted) : exec (.completionWriteEnd c true) s = .next (afterPosted u c sc e) :=
      congrArg Host.Outcome.next ((endCompletion_script hready hd hst hs he).trans (postScript_eq s c sc e hr))
    refine ⟨fun hst ha => ?_, fun hst => ?_, fun hst ha => ?_, fun id p hst ha hw => ?_, fun b n hst ha => ?_⟩
    · have hafter : afterPosted u c sc e = adminDone (t.setChan c after) (.abort c) .ok 0 := by
        rw [afterPosted_running sc e (by rw [hu]; exact hst) (by rw [hu]; exact ha), hset, hu, hidle]
        rfl
      refine ⟨fun hw => ?_, fun id hw => ?_⟩
      · rw [hnext (by rw [hst]; simp), hafter, adminDone_notWaiting, hasked]
        rw [adminWaitsOn, setChan_admin, hadmin]
        exact hw
      · rw [hnext (by rw [hst]; simp), hafter, adminDone_waiting (id := id) _ _ (by rw [setChan_admin, hadmin, hw]), hasked]
    · rw [hnext (by rw [hst]; simp), afterPosted_pausing sc e (by rw [hu]; exact hst), hasked]
    · have hafter := afterPosted_paused sc e (s := u) (by rw [hu]; exact hst) (by rw [hu]; exact ha)
      rw [hset, hset, hu, hidle] at hafter
      have hwaits (on : AdminWait) : adminWaitsOn u on = adminWaitsOn s on := by
        unfold adminWaitsOn
        rw [setChan_admin, hadmin]
      refine ⟨fun id hw => ?_, fun id hw => ?_, fun hstart habort => ?_⟩
      · rw [hnext (by rw [hst]; simp), hafter, if_pos (by rw [hwaits, adminWaitsOn_of_waiting hw]),
          adminDone_waiting (id := id) _ _ (by rw [setChan_admin, hadmin, hw]), hasked]
      · have hother : adminWaitsOn s (.start c) = false := by
          unfold adminWaitsOn
          rw [hw]
          rfl
        rw [hnext (by rw [hst]; simp), hafter, if_neg (by rw [hwaits, hother]; simp),
          adminDone_waiting (id := id) _ _ (by rw [setChan_admin, hadmin, hw]), hasked]
        rfl
      · rw [hnext (by rw [hst]; simp), hafter, if_neg (by rw [hwaits, hstart]; simp), adminDone_notWaiting, hasked]
        · rfl
        · rw [← habort, ← hwaits (.abort c)]
          rfl
    · rw [hnext (by rw [hst]; simp), afterPosted_aborting sc e (by rw [hu]; exact hst) (by rw [hu]; exact ha), hset, hu, hidle,
        adminDone_waiting (id := id) _ _ (by rw [setChan_admin, hadmin, hw]), hasked]
      rfl
    · have hu' : u = t.setChan c (flushChan (s.chan c) r b n) := by
        rw [flushChan, ← ha]
        rfl
      refine ⟨flushNext u c, ?_, ?_⟩
      · rw [hnext (by rcases hst with h | h | h <;> rw [h] <;> simp), afterPosted_flush sc e (by rw [hu]; exact hst) (by rw [hu]; exact ha)]
      · rw [hasks, hu']
        exact flushes t b n hadmin (postAsked_accessOf s c _)
  · refine ⟨_, congrArg Host.Outcome.next ((endCompletion_flushed hready hd (by rw [hst]; simp) hs).trans
      (postFlushed_eq s c hr ha hs)), flushes (askVector s vector) b (n + 1) ?_ ?_⟩
    · rw [askVector_eq]
      rfl
    · rw [askVector_eq]
      rfl

end Sys2Proof.Machine
end

section
/-! PROOF. Index writes, valid and invalid, and the fault of a channel (R31, R32, R169 to R173, R184, R192). -/

namespace Sys2Proof.Machine

open Sys2Proof.Safety

/-! ## The judgement of an index write (R170, R171) -/

theorem tailOk_iff (r : RingPair) (t : Nat) : r.tailOk t = true ↔
    t < r.sqSize ∧ (r.sqTail + r.sqSize - r.sqHead) % r.sqSize ≤ (t + r.sqSize - r.sqHead) % r.sqSize :=
  Bool.and_eq_true_iff.trans (and_congr decide_eq_true_iff decide_eq_true_iff)

theorem headOk_iff (r : RingPair) (h : Nat) : r.headOk h = true ↔
    h < r.cqSize ∧ (h + r.cqSize - r.cqHead) % r.cqSize ≤ r.unconsumed :=
  Bool.and_eq_true_iff.trans (and_congr decide_eq_true_iff decide_eq_true_iff)

section
variable {r : RingPair} {t h : Nat}

theorem indexFault_tail (ht : ¬ r.tailOk t = true) : indexFault r t h = some .sqTailInvalid := if_pos (by simpa using ht)

theorem indexFault_head (ht : r.tailOk t = true) (hh : ¬ r.headOk h = true) : indexFault r t h = some .cqHeadInvalid :=
  (if_neg (by simp [ht])).trans (if_pos (by simpa using hh))

theorem indexFault_none (ht : r.tailOk t = true) (hh : r.headOk h = true) : indexFault r t h = none :=
  (if_neg (by simp [ht])).trans (if_neg (by simp [hh]))

end

/-! ## A write of a channel's indices (R169 to R173) -/

section
variable {s : State} {c : ChanId} {t h : Nat}

theorem exec_channelIndices (word : BitVec 32) (hready : s.ready = true) : exec (.channelQueueIndexWrite c word) s =
    .next (writeIndices s c (word.extractLsb' 0 16).toNat (word.extractLsb' 16 16).toNat) :=
  congrArg Host.Outcome.next (if_pos hready)

theorem writeIndices_none (hr : (s.chan c).rings = none) : writeIndices s c t h = s := by
  unfold writeIndices
  rw [hr]

section
variable {r : RingPair} (hr : (s.chan c).rings = some r)
include hr

theorem writeIndices_faults {k : ChanFault} (hk : indexFault r t h = some k) :
    writeIndices s c t h = settle (channelFault s c k false) := by
  unfold writeIndices
  rw [hr]
  dsimp only
  rw [hk]

theorem writeIndices_valid (hk : indexFault r t h = none) : writeIndices s c t h =
    afterIndexWrite (s.setChan c { s.chan c with rings := some (r.hostWrite t h) }) c := by
  unfold writeIndices
  rw [hr]
  dsimp only
  rw [hk, modRings_eq, hr]
  rfl

end

theorem afterIndexWrite_idle {r : RingPair} (hr : (s.chan c).rings = some r) (hst : (s.chan c).st = .idle) :
    afterIndexWrite s c = s.setChan c { s.chan c with
      wait := if r.sqHead ≠ r.sqTail ∧ r.cqSize ≤ r.unconsumed + (if (s.chan c).reserved then 1 else 0) then .completionSpace
        else .none } := by
  have hidle := enterIdle_eq hr
  rw [← hst] at hidle
  unfold afterIndexWrite
  rw [if_pos hst, modChan_eq, hidle]

theorem flushWaits_iff (ch : Channel) : flushWaits ch = true ↔
    ch.st = .aborting ∧ ch.script = none ∧ ch.data = none ∧ ∃ b n, ch.abort = some (.flush b n) := by
  have hflush : (match ch.abort with
      | some (.flush _ _) => true
      | _ => false) = true ↔ ∃ b n, ch.abort = some (.flush b n) := by
    cases ch.abort with
    | none => simp
    | some a => cases a <;> simp
  rw [flushWaits, Bool.and_eq_true, Bool.and_eq_true, Bool.and_eq_true, beq_iff_eq, Option.isNone_iff_eq_none,
    Option.isNone_iff_eq_none, and_assoc, and_assoc]
  exact and_congr_right fun _ => and_congr_right fun _ => and_congr_right fun _ => hflush

theorem afterIndexWrite_self (hst : (s.chan c).st ≠ .idle)
    (h : (s.chan c).st ≠ .aborting ∨ (s.chan c).script ≠ none ∨ (s.chan c).data ≠ none) : afterIndexWrite s c = s := by
  refine (if_neg hst).trans (if_neg ?_)
  rw [flushWaits_iff]
  rintro ⟨h1, h2, h3, -⟩
  rcases h with h | h | h
  · exact h h1
  · exact h h2
  · exact h h3

theorem afterIndexWrite_flush {b n : Nat} (hst : (s.chan c).st = .aborting) (hs : (s.chan c).script = none)
    (hd : (s.chan c).data = none) (ha : (s.chan c).abort = some (.flush b n)) : afterIndexWrite s c = flushOn s c :=
  (if_neg (by rw [hst]; simp)).trans (if_pos ((flushWaits_iff _).mpr ⟨hst, hs, hd, b, n, ha⟩))

end

/-! ## The fault of a channel (R31, R32) -/

section
variable {s : State} {c : ChanId} {before : Channel} {own : Bool}

theorem answerFault_other (h : ∀ id on, s.admin.progress = .waiting id on →
    on ≠ .start c ∧ on ≠ .pause c ∧ on ≠ .abort c ∧ on ≠ .flush c) : answerFault s c before own = s := by
  unfold answerFault
  split
  · rename_i id on hw
    obtain ⟨h1, h2, h3, h4⟩ := h id on hw
    rw [if_neg (not_or.mpr ⟨h1, h2⟩), if_neg h3, if_neg h4]
  · rfl

variable {id : BitVec 16}

theorem answerFault_held (h : s.admin.progress = .waiting id (.start c) ∨ s.admin.progress = .waiting id (.pause c)) :
    answerFault s c before own = adminAnswer s id .badState 7 := by
  rcases h with h | h
  · unfold answerFault
    rw [h]
    exact (if_pos (.inl rfl)).trans (adminDone_waiting _ _ h)
  · unfold answerFault
    rw [h]
    exact (if_pos (.inr rfl)).trans (adminDone_waiting _ _ h)

theorem answerFault_abort (h : s.admin.progress = .waiting id (.abort c)) : answerFault s c before own =
    if own = true ∧ before.st ≠ .aborting then adminAnswer s id .ok 0 else adminAnswer s id .badState 7 := by
  unfold answerFault
  rw [h]
  dsimp only
  rw [if_neg (by simp), if_pos rfl, adminDone_waiting _ _ h, adminDone_waiting _ _ h]
  rfl

theorem answerFault_flush (h : s.admin.progress = .waiting id (.flush c)) : answerFault s c before own =
    if own = true then adminAnswer s id .hostFault (postedCount before) else adminAnswer s id .badState 7 := by
  unfold answerFault
  rw [h]
  dsimp only
  rw [if_neg (by simp), if_neg (by simp), if_pos rfl, adminDone_waiting _ _ h, adminDone_waiting _ _ h]
  rfl

end

/-- The lock of a channel that faults, unless its access is in flight (R31). -/
def faultFreed (s t : State) (c : ChanId) : State :=
  if lockHeldBy s c = true ∧ s.accessOf c = false then
    { t with arb := { t.arb with lock := none }, own := { t.own with lockTimer := none } }
  else t

/-- The state a channel's fault leaves, before the command that waits on it is answered. -/
def faultRaised (s t : State) (c : ChanId) (code : Detail) : State :=
  raiseEvent ((faultFreed s t c).setChan c { s.chan c with
    st := .faulted, wait := .none, reserved := false, script := none, timer := none, abort := none,
    fetch := (s.chan c).fetch.map fun f => { f with discard := true } }) .channelFault c.val code

section
variable {s : State} {c : ChanId}

theorem channelFault_self (k : ChanFault) (own : Bool) (h : (s.chan c).st = .faulted ∨ (s.chan c).st = .disabled) :
    channelFault s c k own = s := if_pos h

section
variable {t : State} (hcut : CutOff (s.setPresented c none) c t)
include hcut

theorem faultFreed_eq : (if t.accessOf c then t else releaseLock t c) = faultFreed s t c := by
  have hleft : leaveLists (s.setPresented c none) c = t := leaveLists_of_cutOff hcut
  have harb : t.arb = (s.setPresented c none).arb := by rw [← hleft, (leaveLists_listWork _ c).arb]
  have hacc : t.accessOf c = s.accessOf c := by
    unfold State.accessOf
    rw [harb, setPresented_inflight]
  have hlock : lockHeldBy t c = lockHeldBy s c := (lockHeldBy_congr (s := s.setPresented c none) c harb).trans (withdraw_lockHeldBy s c c)
  rw [hacc, releaseLock_eq, hlock, faultFreed]
  cases s.accessOf c
  · simp
  · simp

theorem cutOff_admin : t.admin = s.admin := by
  have hleft : leaveLists (s.setPresented c none) c = t := leaveLists_of_cutOff hcut
  obtain ⟨_, _, _, e⟩ := (leaveLists_listWork (s.setPresented c none) c).frame
  rw [← hleft, e]
  rfl

theorem faultRaised_admin (code : Detail) : (faultRaised s t c code).admin = s.admin := by
  obtain ⟨ev, e⟩ := raiseEvent_frame ((faultFreed s t c).setChan c { s.chan c with
    st := .faulted, wait := .none, reserved := false, script := none, timer := none, abort := none,
    fetch := (s.chan c).fetch.map fun f => { f with discard := true } }) .channelFault c.val code
  have hfree : (faultFreed s t c).admin = t.admin := by unfold faultFreed; split <;> rfl
  rw [faultRaised, e]
  exact hfree.trans (cutOff_admin hcut)

theorem channelFault_eq (k : ChanFault) (own : Bool) (h1 : (s.chan c).st ≠ .faulted) (h2 : (s.chan c).st ≠ .disabled) :
    channelFault s c k own = answerFault (faultRaised s t c (BitVec.ofNat 32 k.code)) c (s.chan c) own := by
  have hleft : leaveLists (withdraw s c) c = t := leaveLists_of_cutOff hcut
  have hchan : (faultFreed s t c).chan c = s.chan c := by
    have ht : t.chan c = s.chan c := by rw [← hleft, leaveLists_chan]; rfl
    rw [← ht]
    unfold faultFreed
    split <;> rfl
  unfold channelFault
  dsimp only
  rw [if_neg (not_or.mpr ⟨h1, h2⟩), hleft, faultFreed_eq hcut, modChan_eq, hchan]
  rfl

end

end

/-! ## The admin indices and the event head (R184, R192) -/

section
variable {s : State} {t h : Nat}

theorem writeAdminIndices_fault (hf : s.admin.fault = true) : writeAdminIndices s t h = s := if_pos hf

theorem writeAdminIndices_eq (hf : s.admin.fault = false) : writeAdminIndices s t h =
    if s.admin.ring.tailOk t = true ∧ s.admin.ring.headOk h = true then
      { s with admin := { s.admin with ring := s.admin.ring.hostWrite t h } }
    else { s with admin := { s.admin with fault := true, reserved := false } } := by
  unfold writeAdminIndices
  rw [if_neg (by simp [hf])]
  exact if_congr Bool.and_eq_true_iff rfl rfl

theorem writeEventHead_off (hoff : s.events.size = 0 ∨ s.events.fault = true) : writeEventHead s h = s := if_pos hoff

theorem writeEventHead_valid (hz : s.events.size ≠ 0) (hf : s.events.fault = false)
    (hh : h < s.events.size ∧ (h + s.events.size - s.events.head) % s.events.size ≤ s.events.unconsumed) : writeEventHead s h =
      startEventWrite { s with events := { s.events with
        head := h, unconsumed := s.events.unconsumed - (h + s.events.size - s.events.head) % s.events.size } } :=
  (if_neg (by simp [hz, hf])).trans (if_pos hh)

theorem writeEventHead_invalid (hz : s.events.size ≠ 0) (hf : s.events.fault = false)
    (hh : ¬ (h < s.events.size ∧ (h + s.events.size - s.events.head) % s.events.size ≤ s.events.unconsumed)) :
    writeEventHead s h = { s with events := { s.events with fault := true } } :=
  (if_neg (by simp [hz, hf])).trans (if_neg hh)

end

/-- Settles O45, by the validity of the write; a fault by the command that waits on the channel. -/
theorem queueIndexWritesAct : Obligations.QueueIndexWritesAct := by
  refine ⟨fun s c word hready => ?_, fun s c k own => ⟨channelFault_self k own, fun h1 h2 t hcut => ?_⟩, fun s word hready => ?_,
    fun s word hready => ?_⟩
  · intro t h
    refine ⟨fun hr => (exec_channelIndices word hready).trans (congrArg Host.Outcome.next (writeIndices_none hr)), fun r hr => ?_⟩
    intro tailOk taken headOk r' ch full
    have hx : (s.setChan c ch).chan c = ch := chan_setChan_self ..
    rw [exec_channelIndices word hready]
    refine ⟨fun ht hh => ?_, fun ht => ?_, fun ht hh => ?_⟩
    · have hvalid : writeIndices s c t h = afterIndexWrite (s.setChan c ch) c :=
        writeIndices_valid hr (indexFault_none ((tailOk_iff r t).mpr ht) ((headOk_iff r h).mpr hh))
      refine ⟨fun hst => ?_, fun hst hw => ?_, fun b n hst hs hd ha hb hfull => ?_⟩
      · rw [hvalid, afterIndexWrite_idle (r := r') (by rw [hx]) (by rw [hx]; exact hst), hx, setChan_setChan]
      · rw [hvalid, afterIndexWrite_self (by rw [hx]; exact hst) (by rw [hx]; exact hw)]
      · rw [hvalid, afterIndexWrite_flush (b := b) (n := n) (by rw [hx]; exact hst) (by rw [hx]; exact hs) (by rw [hx]; exact hd)
          (by rw [hx]; exact ha), flushOn_reads (r := r') (b := b) (p := n) (by rw [hx]) (by rw [hx]; exact ha) hb
          (by rw [hx]; exact Nat.not_le.mp hfull), hx, setChan_setChan]
    · rw [writeIndices_faults hr (indexFault_tail (mt (tailOk_iff r t).mp ht))]
    · rw [writeIndices_faults hr (indexFault_head ((tailOk_iff r t).mpr ht) (mt (headOk_iff r h).mp hh))]
  · intro free code u answers
    have hcode : BitVec.ofNat 32 k.code = code := by cases k <;> rfl
    have hu : faultRaised s t c code = u := rfl
    have hadmin : u.admin = s.admin := faultRaised_admin hcut code
    have hfault := channelFault_eq hcut k own h1 h2
    rw [hcode, hu] at hfault
    refine ⟨fun h => ?_, fun id => ⟨fun h => ?_, fun h => ⟨fun h3 h4 => ?_, fun h3 => ?_⟩, fun h => ⟨fun h3 => ?_, fun h3 => ?_⟩⟩⟩
    · rw [hfault, answerFault_other (by rw [hadmin]; exact h)]
    · exact hfault.trans (answerFault_held (by rw [hadmin]; exact h))
    · exact hfault.trans ((answerFault_abort (by rw [hadmin]; exact h)).trans (if_pos ⟨h3, h4⟩))
    · refine hfault.trans ((answerFault_abort (by rw [hadmin]; exact h)).trans (if_neg ?_))
      rintro ⟨h4, h5⟩
      rcases h3 with h3 | h3
      · cases h4.symm.trans h3
      · exact h5 h3
    · exact hfault.trans ((answerFault_flush (by rw [hadmin]; exact h)).trans (if_pos h3))
    · exact hfault.trans ((answerFault_flush (by rw [hadmin]; exact h)).trans (if_neg (by rw [h3]; simp)))
  · intro t h r taken good
    have hexec : exec (.adminQueueIndexWrite word) s = .next (writeAdminIndices s t h) := congrArg Host.Outcome.next (if_pos hready)
    have hgood : (s.admin.ring.tailOk t = true ∧ s.admin.ring.headOk h = true) ↔ good :=
      and_congr (tailOk_iff _ t) (headOk_iff _ h)
    rw [hexec]
    refine ⟨fun hf => ?_, fun hf hg => ?_, fun hf hg => ?_⟩
    · rw [writeAdminIndices_fault hf]
    · rw [writeAdminIndices_eq hf, if_pos (hgood.mpr hg)]
      rfl
    · rw [writeAdminIndices_eq hf, if_neg (mt hgood.mp hg)]
  · intro h e taken
    have hexec : exec (.eventQueueIndexWrite word) s = .next (writeEventHead s h) := congrArg Host.Outcome.next (if_pos hready)
    rw [hexec]
    exact ⟨fun hoff => congrArg Host.Outcome.next (writeEventHead_off hoff),
      fun hz hf hh => congrArg Host.Outcome.next (writeEventHead_valid hz hf hh),
      fun hz hf hh => congrArg Host.Outcome.next (writeEventHead_invalid hz hf hh)⟩

end Sys2Proof.Machine
end

section
/-! PROOF. The ends of an attempt, and the outcome a step takes from its access (R37, R39, R42 to R55, R69 to R74, R136). -/

namespace Sys2Proof.Machine

open Sys2Proof.Safety

/-! ## The four ends of an attempt (R70, R71, R73) -/

theorem removeRecord_eq (s : State) : removeRecord s = accessOver s := rfl

theorem returned_eq (f : InFlight) (lanes : Value) : returned f lanes =
    if f.purpose.isWrite then 0 else if f.region.width = .w8 then lanes &&& 0xFF else lanes := by
  unfold returned
  rw [narrow_eq]

section
variable {s : State}

section
variable (h : s.arb.inflight = none)
include h

theorem seeReady_none (lanes : Value) : seeReady s lanes = s := by unfold seeReady; rw [h]

theorem strobeRunsOut_none (lanes : Value) : strobeRunsOut s lanes = s := by unfold strobeRunsOut; rw [h]

theorem seeError_none : seeError s = s := by unfold seeError; rw [h]

theorem readyRunsOut_none : readyRunsOut s = s := by unfold readyRunsOut; rw [h]

end

section
variable {f : InFlight} (hf : s.arb.inflight = some f)
include hf

theorem seeError_some : seeError s = endAccess s f (.failed .targetError) := by unfold seeError; rw [hf]

theorem seeReady_some (lanes : Value) : seeReady s lanes =
    if f.region.readyMode = .sampled then endAccess s f (.done (returned f lanes)) else s := by unfold seeReady; rw [hf]

theorem strobeRunsOut_some (lanes : Value) : strobeRunsOut s lanes =
    if f.region.readyMode = .fixed then endAccess s f (.done (returned f lanes)) else s := by unfold strobeRunsOut; rw [hf]

theorem readyRunsOut_some : readyRunsOut s = if f.region.readyMode = .sampled then
    if f.attempt ≤ f.region.retries then retryAccess s f else endAccess s f (.failed .readyTimeout) else s := by
  unfold readyRunsOut; rw [hf]

end

/-! ## A ready timeout with retries left (R73) -/

section
variable {f : InFlight} (hready : s.ready = true)
include hready

theorem retryAccess_running (hst : (s.chan f.chan).st = .running) : retryAccess s f = settle (joinSet (accessOver s) f.chan
    { addr := f.addr, purpose := f.purpose, value := f.value, mark := f.mark, attempt := f.attempt + 1,
      presentedAt := s.timebase }) := by
  have hst' : ((accessOver s).chan f.chan).st = .running := hst
  unfold retryAccess
  dsimp only
  rw [if_pos hready, removeRecord_eq, hst']
  rfl

theorem retryAccess_stops (hst : (s.chan f.chan).st = .pausing ∨ (s.chan f.chan).st = .aborting) :
    retryAccess s f = settle (goOn (accessOver s) f.chan) := by
  have hst' : ((accessOver s).chan f.chan).st = .pausing ∨ ((accessOver s).chan f.chan).st = .aborting := hst
  unfold retryAccess
  dsimp only
  rw [if_pos hready, removeRecord_eq]
  rcases hst' with h | h <;> rw [h]

theorem retryAccess_faulted (hst : (s.chan f.chan).st = .faulted) :
    retryAccess s f = settle (goOn (releaseLock (accessOver s) f.chan) f.chan) := by
  have hst' : ((accessOver s).chan f.chan).st = .faulted := hst
  unfold retryAccess
  dsimp only
  rw [if_pos hready, removeRecord_eq, hst']

end

theorem retryAccess_reset {f : InFlight} (hready : s.ready = false) :
    retryAccess s f = afterAccessInReset (waitOver (accessOver s) f.chan) := by
  unfold retryAccess
  exact if_neg (by simp [hready])

/-- The lock a channel holds once the record of its access is gone. -/
theorem accessOver_lockHeldBy (s : State) (c : ChanId) : lockHeldBy (accessOver s) c = lockHeldBy s c := rfl

end

/-- Settles O55, by the ready mode, the attempt number and the state of the channel. -/
theorem attemptsEnd : Obligations.AttemptsEnd := by
  refine ⟨fun s lanes h => ?_, fun s f lanes hf => ?_⟩
  · exact ⟨congrArg Host.Outcome.next (seeReady_none h lanes), congrArg Host.Outcome.next (strobeRunsOut_none h lanes),
      congrArg Host.Outcome.next (seeError_none h), congrArg Host.Outcome.next (readyRunsOut_none h)⟩
  · intro value c
    have hvalue : returned f lanes = value := returned_eq f lanes
    have hreadyEnd := seeReady_some hf lanes
    have hstrobe := strobeRunsOut_some hf lanes
    have htimeout := readyRunsOut_some hf
    rw [hvalue] at hreadyEnd hstrobe
    refine ⟨congrArg Host.Outcome.next (seeError_some hf), fun hm => ⟨?_, ?_, fun ha => ?_, fun ha hready => ?_, fun ha hready => ?_⟩,
      fun hm => ⟨?_, ?_, ?_⟩⟩
    · exact congrArg Host.Outcome.next (hreadyEnd.trans (if_pos hm))
    · exact congrArg Host.Outcome.next (hstrobe.trans (if_neg (by rw [hm]; simp)))
    · exact congrArg Host.Outcome.next (htimeout.trans ((if_pos hm).trans (if_neg (Nat.not_le.mpr ha))))
    · have hretry : exec .readyTimeout s = .next (retryAccess s f) :=
        congrArg Host.Outcome.next (htimeout.trans ((if_pos hm).trans (if_pos ha)))
      rw [hretry]
      refine ⟨fun hst => (by rw [retryAccess_running hready hst]), fun hst => (by rw [retryAccess_stops hready hst]),
        fun hst hl => ?_, fun hst hl => ?_⟩
      · rw [retryAccess_faulted hready hst, releaseLock_eq, accessOver_lockHeldBy, if_neg (ne_true_of_eq_false hl)]
      · rw [retryAccess_faulted hready hst, releaseLock_eq, accessOver_lockHeldBy, if_pos hl]
        rfl
    · have hretry : exec .readyTimeout s = .next (retryAccess s f) :=
        congrArg Host.Outcome.next (htimeout.trans ((if_pos hm).trans (if_pos ha)))
      rw [hretry, retryAccess_reset hready]
    · exact congrArg Host.Outcome.next (hstrobe.trans (if_pos hm))
    · exact congrArg Host.Outcome.next (hreadyEnd.trans (if_neg (by rw [hm]; simp)))
    · exact congrArg Host.Outcome.next (htimeout.trans (if_neg (by rw [hm]; simp)))

end Sys2Proof.Machine
end

section
/-! PROOF. The outcome a step takes from its access, in each state of the channel (R37, R39, R42 to R55, R74, R136, R137). -/

namespace Sys2Proof.Machine

open Sys2Proof.Safety

/-! ## Deliveries that start no step -/

section
variable {s : State} {c : ChanId}

theorem startedStep_of_behind {ch : Channel} (h : Behind 0 ch) : startedStep ch = false := by
  rw [← Bool.not_eq_true]
  intro hs
  obtain ⟨_, _, hlen⟩ := h.window hs
  exact Nat.not_lt_zero _ hlen

theorem startedStep_st {ch : Channel} (h : ch.st ≠ .running) : startedStep ch = false := by
  rw [← Bool.not_eq_true, startedStep_iff]
  exact fun hs => h hs.1

theorem carrySteps_endScript (s : State) (c : ChanId) (e : Status) (o : Nat) (d : Detail) :
    carrySteps (endScript s c e o d) c = endScript s c e o d :=
  carrySteps_self (startedStep_of_behind (endScript_behind 0 s c e o d))

theorem startedStep_goOn (h : (s.chan c).st ≠ .running) : startedStep ((goOn s c).chan c) = false := by
  cases hst : (s.chan c).st with
  | running => exact absurd hst h
  | pausing =>
    rw [goOn_pausing hst, pauseCheck, if_pos hst]
    split
    · rw [adminDone_chan, modChan_eq, chan_setChan_self]
      exact startedStep_st (by simp)
    · rw [setWait_eq, chan_setChan_self]
      exact startedStep_st (by simp [hst])
  | aborting =>
    rw [goOn_aborting hst]
    by_cases hq : Unended s c ∧ quiet s c = true
    · obtain ⟨⟨sc, hs, he⟩, hq⟩ := hq
      rw [abortCheck_quiet hst hs he hq]
      exact startedStep_of_behind (endScript_behind ..)
    · rw [abortCheck_ended hst (by rwa [not_and_or, Bool.not_eq_true] at hq), setWait_eq, chan_setChan_self]
      exact startedStep_st (by simp [hst])
  | stopped =>
    rw [goOn_stopped (.inl hst), releaseCheck]
    split
    · rw [adminDone_chan, releaseChan, chan_setChan_self]
      rfl
    · exact startedStep_st h
  | faulted =>
    rw [goOn_stopped (.inr hst), releaseCheck]
    split
    · rw [adminDone_chan, releaseChan, chan_setChan_self]
      rfl
    · exact startedStep_st h
  | disabled => rw [goOn_still (.inl hst)]; exact startedStep_st h
  | idle => rw [goOn_still (.inr (.inl hst))]; exact startedStep_st h
  | paused => rw [goOn_still (.inr (.inr hst))]; exact startedStep_st h

theorem carrySteps_goOn (h : (s.chan c).st ≠ .running) : carrySteps (goOn s c) c = goOn s c :=
  carrySteps_self (startedStep_goOn h)

/-- A step past its start is not carried out again. -/
theorem startedStep_past {ch : Channel} {sc : Script} {st : Step} (hs : ch.script = some sc) (hc : sc.current = some st)
    (hp : st.progress ≠ .fresh) : startedStep ch = false :=
  startedStep_of_behind (behind_progress fun sc' st' h1 h2 => by
    cases hs.symm.trans h1
    cases hc.symm.trans h2
    exact hp)

theorem joinSet_chan (s : State) (c : ChanId) (r : Request) : (joinSet s c r).chan c = { s.chan c with wait := .bus } := by
  unfold joinSet askBus
  split
  · exact chan_setChan_self (s.setPresented c (some r)) c _
  · exact chan_setChan_self (s.setPresented c (some r)) c _

end

/-! ## The store takes the unit a write put on the lanes (R136) -/

/-- A write that ended DONE in a shadowed window. -/
def shadowWrite (f : InFlight) : Bool := f.purpose.isWrite && f.value.isSome && f.region.rights == .writeOnlyShadowed

/-- The store has no place for the unit (R137). -/
def storeFull (s : State) (f : InFlight) : Bool :=
  shadowWrite f && !(s.shadow.any fun e => e.addr == f.addr) && 64 ≤ s.shadow.length

/-- The state after a write that ended DONE has been recorded. -/
def storeTaken (s : State) (f : InFlight) : State :=
  match f.value with
  | some v =>
    if !shadowWrite f || storeFull s f then accessOver s
    else if (s.shadow.any fun e => e.addr == f.addr) then
      { accessOver s with shadow := s.shadow.map fun e =>
          if e.addr = f.addr then { e with value := if f.region.width = .w8 then v &&& 0xFF else v } else e }
    else { accessOver s with shadow := s.shadow ++
      [{ addr := f.addr, value := if f.region.width = .w8 then v &&& 0xFF else v, index := f.index }] }
  | none => accessOver s

section
variable (s : State) (f : InFlight)

theorem recordWrite_failed (e : Status) : recordWrite (accessOver s) f (.failed e) = (accessOver s, false) := rfl

theorem recordWrite_off (x : Value) (h : shadowWrite f = false) : recordWrite (accessOver s) f (.done x) = (accessOver s, false) := by
  unfold recordWrite
  split
  · rename_i v hv
    have hw : ¬ (f.purpose.isWrite && f.region.rights == .writeOnlyShadowed) = true := by
      simpa [shadowWrite, hv] using h
    exact if_neg hw
  · rfl

theorem storeFull_off (h : shadowWrite f = false) : storeFull s f = false := by rw [storeFull, h]; rfl

theorem storeTaken_off (h : shadowWrite f = false) : storeTaken s f = accessOver s := by
  unfold storeTaken
  split
  · exact if_pos (by rw [h]; rfl)
  · rfl

theorem recordWrite_done (x : Value) : recordWrite (accessOver s) f (.done x) = (storeTaken s f, storeFull s f) := by
  cases hw : shadowWrite f with
  | false => rw [recordWrite_off s f x hw, storeTaken_off s f hw, storeFull_off s f hw]
  | true =>
    obtain ⟨⟨hwrite, hvalue⟩, hrights⟩ : (f.purpose.isWrite = true ∧ f.value.isSome = true) ∧
        (f.region.rights == .writeOnlyShadowed) = true := by simpa only [shadowWrite, Bool.and_eq_true] using hw
    obtain ⟨v, hv⟩ := Option.isSome_iff_exists.mp hvalue
    have hfull : storeFull s f = shadowIsFull s.shadow f.addr := by
      rw [storeFull, hw, Bool.true_and]
      rfl
    unfold recordWrite storeTaken
    rw [hv, hfull, hw]
    dsimp only
    rw [if_pos (by rw [hwrite, hrights]; rfl), ← narrow_eq, shadowRecord, show (accessOver s).shadow = s.shadow from rfl]
    by_cases h : shadowIsFull s.shadow f.addr = true
    · rw [if_pos h, if_pos (by rw [h]; rfl), h]
      rfl
    · rw [if_neg h, if_neg (by simpa using h), Bool.not_eq_true _ |>.mp h]
      unfold shadowPut shadowHas
      by_cases hheld : (s.shadow.any fun e => e.addr == f.addr) = true
      · rw [if_pos hheld, if_pos hheld]
      · rw [if_neg hheld, if_neg hheld]

/-- The record changes the store alone. -/
theorem storeTaken_frame : ∃ es, storeTaken s f = { accessOver s with shadow := es } := by
  obtain ⟨es, h, -⟩ := recordWrite_eq (accessOver s) f (.done 0)
  rw [recordWrite_done] at h
  exact ⟨es, h⟩

theorem storeTaken_chan (c : ChanId) : (storeTaken s f).chan c = s.chan c := by
  obtain ⟨es, h⟩ := storeTaken_frame s f
  rw [h]
  rfl

end

end Sys2Proof.Machine
end

section
/-! PROOF. The outcome a step takes from its access, in each state of the channel (R37, R39, R42 to R55, R74). -/

namespace Sys2Proof.Machine

open Sys2Proof.Safety

/-! ## The delivery of an outcome (R74) -/

section
variable {s : State} {f : InFlight} {o : AccessOutcome} {full : Bool}

theorem deliver_done {x : Value} (h : (s.chan f.chan).st = .running ∨ (s.chan f.chan).st = .pausing) :
    deliver s f (.done x) full = stepDone s f.chan f x full := by
  unfold deliver
  dsimp only
  rcases h with h | h <;> rw [h]

theorem deliver_failed {e : Status} (h : (s.chan f.chan).st = .running ∨ (s.chan f.chan).st = .pausing) :
    deliver s f (.failed e) full = failAccess s f.chan e := by
  unfold deliver
  dsimp only
  rcases h with h | h <;> rw [h]

theorem deliver_aborting (h : (s.chan f.chan).st = .aborting) : deliver s f o full = goOn s f.chan := by
  unfold deliver
  dsimp only
  rw [h]

theorem deliver_faulted (h : (s.chan f.chan).st = .faulted) : deliver s f o full = goOn (releaseLock s f.chan) f.chan := by
  unfold deliver
  dsimp only
  rw [h]

/-- The state an outcome leaves before it is delivered. -/
def outcomeLeft (s : State) (f : InFlight) : AccessOutcome → State
  | .done _ => storeTaken s f
  | .failed _ => accessOver s

theorem recordWrite_left (s : State) (f : InFlight) (o : AccessOutcome) :
    (recordWrite (accessOver s) f o).1 = outcomeLeft s f o := by
  cases o with
  | done x => rw [recordWrite_done]; rfl
  | failed e => rfl

theorem outcomeLeft_frame (s : State) (f : InFlight) (o : AccessOutcome) :
    ∃ es, outcomeLeft s f o = { accessOver s with shadow := es } := by
  cases o with
  | done x => exact storeTaken_frame s f
  | failed e => exact ⟨_, rfl⟩

theorem outcomeLeft_st (s : State) (f : InFlight) (o : AccessOutcome) (c : ChanId) :
    ((outcomeLeft s f o).chan c).st = (s.chan c).st := by
  obtain ⟨es, h⟩ := outcomeLeft_frame s f o
  rw [h]
  rfl

theorem endAccess_reset (hready : s.ready = false) (o : AccessOutcome) :
    endAccess s f o = afterAccessInReset (waitOver (outcomeLeft s f o) f.chan) := by
  unfold endAccess
  dsimp only
  rw [removeRecord_eq, recordWrite_left]
  exact if_neg (by simp [hready])

section
variable (hready : s.ready = true)
include hready

theorem endAccess_ready (o : AccessOutcome) : endAccess s f o = settle (carrySteps
    (deliver (outcomeLeft s f o) f o (recordWrite (accessOver s) f o).2) f.chan) := by
  unfold endAccess
  dsimp only
  rw [removeRecord_eq, recordWrite_left]
  exact if_pos hready

theorem endAccess_aborting (o : AccessOutcome) (hst : (s.chan f.chan).st = .aborting) :
    endAccess s f o = settle (goOn (outcomeLeft s f o) f.chan) := by
  have hst' : ((outcomeLeft s f o).chan f.chan).st = .aborting := by rw [outcomeLeft_st, hst]
  rw [endAccess_ready hready, deliver_aborting hst', carrySteps_goOn (by rw [hst']; simp)]

theorem endAccess_faulted (o : AccessOutcome) (hst : (s.chan f.chan).st = .faulted) :
    endAccess s f o = settle (goOn (releaseLock (outcomeLeft s f o) f.chan) f.chan) := by
  have hst' : ((outcomeLeft s f o).chan f.chan).st = .faulted := by rw [outcomeLeft_st, hst]
  have hst'' : ((releaseLock (outcomeLeft s f o) f.chan).chan f.chan).st = .faulted := by rw [releaseLock_chan, hst']
  rw [endAccess_ready hready, deliver_faulted hst', carrySteps_goOn (by rw [hst'']; simp)]

variable (hst : (s.chan f.chan).st = .running ∨ (s.chan f.chan).st = .pausing)
include hst

theorem endAccess_done (x : Value) : endAccess s f (.done x) =
    settle (carrySteps (stepDone (storeTaken s f) f.chan f x (storeFull s f)) f.chan) := by
  have hst' : ((storeTaken s f).chan f.chan).st = .running ∨ ((storeTaken s f).chan f.chan).st = .pausing := by
    rw [storeTaken_chan]
    exact hst
  rw [endAccess_ready hready, recordWrite_done]
  exact congrArg (fun t => settle (carrySteps t f.chan)) (deliver_done hst')

theorem endAccess_read (x : Value) (hw : f.purpose.isWrite = false) : endAccess s f (.done x) =
    settle (carrySteps (stepDone (accessOver s) f.chan f x false) f.chan) := by
  have hno : shadowWrite f = false := by rw [shadowWrite, hw]; rfl
  rw [endAccess_done hready hst, storeTaken_off s f hno, storeFull_off s f hno]

theorem endAccess_failed {sc : Script} {st : Step} (e : Status) (hin : InStep s f.chan sc st) :
    endAccess s f (.failed e) = settle (endScript (accessOver s) f.chan e sc.ordinals (match st.progress with
      | .blockIn d _ _ => BitVec.ofNat 32 d
      | .blockOut d _ _ => BitVec.ofNat 32 d
      | _ => (StepRecord.addr st.bits).setWidth 32)) := by
  have hst' : ((accessOver s).chan f.chan).st = .running ∨ ((accessOver s).chan f.chan).st = .pausing := hst
  have hin' : InStep (accessOver s) f.chan sc st := hin
  rw [endAccess_ready hready]
  refine congrArg settle ((congrArg (fun t => carrySteps t f.chan) (deliver_failed hst')).trans ?_)
  exact (congrArg (fun t => carrySteps t f.chan) (failAccess_eq e hin')).trans (carrySteps_endScript ..)

end

end

/-! ## The outcome DONE, by the progress of the step (chapter 02) -/

section
variable {s : State} {c : ChanId} {f : InFlight} {v : Value} {full : Bool} {st : Step} (h : s.step? c = some st)
include h

theorem stepDone_write (hp : st.progress = .write ∨ ∃ kept b, st.progress = .modWrite kept b) :
    stepDone s c f v full = finishWrite s c st full := by
  unfold stepDone
  rw [h]
  dsimp only
  rcases hp with hp | ⟨kept, b, hp⟩ <;> rw [hp]

theorem stepDone_read (hp : st.progress = .read) : stepDone s c f v full = continueStep (s.setProgress c (.readValue v)) c := by
  unfold stepDone
  rw [h]
  dsimp only
  rw [hp]

theorem stepDone_modRead (hp : st.progress = .modRead) :
    stepDone s c f v full = continueStep (s.setProgress c (.modWrite (some v) false)) c := by
  unfold stepDone
  rw [h]
  dsimp only
  rw [hp]

theorem stepDone_poll {tries : Nat} {last : Value} (hp : st.progress = .poll tries last) :
    stepDone s c f v full = pollTried s c st tries v := by
  unfold stepDone
  rw [h]
  dsimp only
  rw [hp]

theorem stepDone_blockIn {d n : Nat} {x : Option Value} (hp : st.progress = .blockIn d n x) : stepDone s c f v full =
    continueStep (s.setProgress c (.blockIn d (nextAddr st f.addr f.region) (some v))) c := by
  unfold stepDone
  rw [h]
  dsimp only
  rw [hp]

theorem stepDone_blockOut {d n : Nat} {x : Option Value} (hp : st.progress = .blockOut d n x) : stepDone s c f v full =
    blockOutDone s c st d (nextAddr st f.addr f.region) full := by
  unfold stepDone
  rw [h]
  dsimp only
  rw [hp]

end

theorem nextAddr_eq (st : Step) (a : BusAddr) (g : Region) : nextAddr st a g =
    if StepRecord.fixedAddr st.bits then a.toNat else a.toNat + (if g.width = .w8 then 1 else 2) := by
  unfold nextAddr
  cases g.width <;> rfl

/-! ## A step past an access goes on (R21) -/

/-- A step goes on to a host transfer, or stops before it in PAUSING (R21, R41). -/
def stepMoves (s t : State) (c : ChanId) (w : WaitReason) (d : Data) : State :=
  if (s.chan c).st = .pausing then goOn t c else t.setChan c { t.chan c with wait := w, data := some d }

/-- A step goes on to an access, or stops before it in PAUSING; in ISOLATED mode the access fails at once (R21, R36). -/
def stepGoes (s t : State) (c : ChanId) (sc : Script) (d : Detail) (next : State) : State :=
  if (s.chan c).st = .pausing then goOn t c
  else if s.own.mode = .isolated then endScript t c .portIsolated sc.ordinals d else next

theorem continue_moves {s t : State} {c : ChanId} {sc : Script} {st : Step} {d : Data} (ht : (t.chan c).st = (s.chan c).st)
    (hs : (t.chan c).script = some sc) (hc : sc.current = some st) (hp : st.progress ≠ .fresh)
    (hst : (s.chan c).st = .running ∨ (s.chan c).st = .pausing) (hact : (s.chan c).st = .running → act t c = startData t c d) :
    carrySteps (continueStep t c) c = stepMoves s t c d.reason d := by
  unfold continueStep stepMoves
  rcases hst with hst | hst
  · rw [if_pos (ht.trans hst), if_neg (by rw [hst]; simp), hact hst, startData, modChan_eq]
    refine carrySteps_self ?_
    rw [chan_setChan_self]
    exact startedStep_past hs hc hp
  · rw [if_neg (by rw [ht, hst]; simp), if_pos hst, carrySteps_goOn (by rw [ht, hst]; simp)]

section
variable {s : State} {c : ChanId} {sc : Script} {st : Step} (hs : (s.chan c).script = some sc) (hc : sc.current = some st)
  (hst : (s.chan c).st = .running ∨ (s.chan c).st = .pausing)
include hs hc hst

theorem continue_goes {p : Progress} {pu : Purpose} {a : BusAddr} {v : Option Value} (hp : p ≠ .fresh)
    (hact : act (s.setProgress c p) c = present (s.setProgress c p) c { st with progress := p } pu a v) :
    carrySteps (continueStep (s.setProgress c p) c) c = stepGoes s (s.setProgress c p) c sc (accessDetail { st with progress := p })
      (joinSet (s.setProgress c p) c (request s c { st with progress := p } pu a v)) := by
  have ht : ((s.setProgress c p).chan c).st = (s.chan c).st := setProgress_st s c p
  unfold continueStep stepGoes
  rcases hst with hst | hst
  · rw [if_pos (ht.trans hst), if_neg (by rw [hst]; simp), hact, present_after hs hc]
    split
    · exact carrySteps_endScript ..
    · refine carrySteps_self ?_
      rw [joinSet_chan]
      exact startedStep_past (setProgress_script hs hc p) rfl hp
  · rw [if_neg (by rw [ht, hst]; simp), if_pos hst, carrySteps_goOn (by rw [ht, hst]; simp)]

end

/-! ## A write that ended DONE (R39, R42, R46) -/

section
variable {s : State} {c : ChanId} {sc : Script} (hs : (s.chan c).script = some sc)
include hs

theorem strictFull_script (full : Bool) : strictFull s c full = (full && sc.shadowStrict) := by
  unfold strictFull
  rw [hs]

theorem finishWrite_strict {full : Bool} (st : Step) (h : (full && sc.shadowStrict) = true) : finishWrite s c st full =
    endScript s c .shadowFull sc.ordinals ((StepRecord.addr st.bits).setWidth 32) := by
  unfold finishWrite
  rw [strictFull_script hs, if_pos h, failStep_script hs]

theorem finishWrite_ends {full : Bool} (st : Step) (h : (full && sc.shadowStrict) = false) : finishWrite s c st full =
    completeStep (if full then s.warn c warnShadowFull else s) c := by
  unfold finishWrite
  rw [strictFull_script hs, if_neg (ne_true_of_eq_false h)]
  rfl

theorem warned_script (full : Bool) : ∃ w, ((if full then s.warn c warnShadowFull else s).chan c).script =
    some { sc with warnings := w } := by
  cases full
  · exact ⟨sc.warnings, hs⟩
  · refine ⟨warnShadowFull sc.warnings, ?_⟩
    rw [if_pos rfl, warn_eq, chan_setChan_self, hs]
    rfl

omit hs in
theorem warned_st (full : Bool) : ((if full then s.warn c warnShadowFull else s).chan c).st = (s.chan c).st := by
  cases full
  · rfl
  · rw [if_pos rfl, warn_eq, chan_setChan_self]

end

/-! ## A try of a POLL (R49, R50) -/

section
variable {s : State} {c : ChanId} {sc : Script} {st : Step} (hs : (s.chan c).script = some sc) (hc : sc.current = some st)
  (tries : Nat) (v : Value)

theorem pollTried_hit (h : v &&& StepRecord.mask st.bits = StepRecord.wanted st.bits) :
    pollTried s c st tries v = completeStep (s.setProgress c (.poll (tries - 1) v)) c := by
  unfold pollTried
  exact if_pos h

variable {tries} (hmiss : ¬ v &&& StepRecord.mask st.bits = StepRecord.wanted st.bits)
include hmiss

theorem pollTried_soft (ht : tries = 1) (hsoft : StepRecord.soft st.bits = true) : pollTried s c st tries v =
    completeStep ((s.setProgress c (.poll (tries - 1) v)).warn c warnSoftTimeout) c := by
  unfold pollTried
  dsimp only
  rw [if_neg hmiss, if_pos (by rw [ht]), pollExhausted, if_pos hsoft]

include hs hc in
theorem pollTried_fails (ht : tries = 1) (hsoft : StepRecord.soft st.bits = false) : pollTried s c st tries v =
    endScript (s.setProgress c (.poll (tries - 1) v)) c .pollTimeout sc.ordinals (v.setWidth 32) := by
  have hord := failStep_script (setProgress_script hs hc (.poll (tries - 1) v)) .pollTimeout (v.setWidth 32)
  unfold pollTried
  dsimp only
  rw [if_neg hmiss, if_pos (by rw [ht]), pollExhausted, if_neg (ne_true_of_eq_false hsoft), hord]

theorem pollTried_again (ht : 2 ≤ tries) (hi : StepRecord.interval st.bits = 0) : pollTried s c st tries v =
    continueStep (s.setProgress c (.poll (tries - 1) v)) c := by
  unfold pollTried continueStep
  dsimp only
  rw [if_neg hmiss, if_neg (by omega), if_pos hi]

include hs hc in
theorem pollTried_waits (ht : 2 ≤ tries) (hi : StepRecord.interval st.bits ≠ 0)
    (hst : (s.chan c).st = .running ∨ (s.chan c).st = .pausing) : carrySteps (pollTried s c st tries v) c =
    if (s.chan c).st = .pausing then goOn (s.setProgress c (.poll (tries - 1) v)) c
    else (s.setProgress c (.poll (tries - 1) v)).setChan c { (s.setProgress c (.poll (tries - 1) v)).chan c with
      wait := .timer, timer := some (StepRecord.interval st.bits) } := by
  have hkept : ((s.setProgress c (.poll (tries - 1) v)).chan c).st = (s.chan c).st := setProgress_st s c _
  unfold pollTried
  dsimp only
  rw [if_neg hmiss, if_neg (by omega), if_neg hi]
  rcases hst with hst | hst
  · rw [if_pos (hkept.trans hst), if_neg (by rw [hst]; simp), modChan_eq]
    refine carrySteps_self ?_
    rw [chan_setChan_self]
    exact startedStep_past (setProgress_script hs hc (.poll (tries - 1) v)) rfl (by simp)
  · rw [if_neg (by rw [hkept, hst]; simp), if_pos hst, carrySteps_goOn (by rw [hkept, hst]; simp)]

end

/-! ## A unit of a BLOCK_OUT (R54, R55) -/

section
variable {s : State} {c : ChanId} {sc : Script} {st : Step} (hs : (s.chan c).script = some sc) (hc : sc.current = some st)
  {full : Bool} (d next : Nat)
include hs hc

theorem blockOutDone_strict (h : (full && sc.shadowStrict) = true) : blockOutDone s c st d next full =
    endScript (s.setProgress c (.blockOut (d + 1) next none)) c .shadowFull sc.ordinals (BitVec.ofNat 32 (d + 1)) := by
  have ht := setProgress_script hs hc (.blockOut (d + 1) next none)
  unfold blockOutDone
  dsimp only
  rw [strictFull_script ht, if_pos h, failStep_script ht]

variable (h : (full && sc.shadowStrict) = false)
include h

theorem blockOutDone_goes : blockOutDone s c st d next full = if d + 1 = StepRecord.count st.bits then
      completeStep (warnIfFull (s.setProgress c (.blockOut (d + 1) next none)) c full) c
    else continueStep (warnIfFull (s.setProgress c (.blockOut (d + 1) next none)) c full) c := by
  have ht := setProgress_script hs hc (.blockOut (d + 1) next none)
  unfold blockOutDone
  dsimp only
  rw [strictFull_script ht, if_neg (ne_true_of_eq_false h)]

end

theorem releaseLock_left {s : State} {f : InFlight} (o : AccessOutcome) {c : ChanId} : releaseLock (outcomeLeft s f o) c =
    if lockHeldBy s c then { outcomeLeft s f o with
      arb := { (accessOver s).arb with lock := none }, own := { s.own with lockTimer := none } }
    else outcomeLeft s f o := by
  obtain ⟨es, h⟩ := outcomeLeft_frame s f o
  rw [h, releaseLock_eq]
  rfl

/-- Settles O56, by the state of the channel and the progress of the step. -/
theorem outcomesTaken : Obligations.OutcomesTaken := by
  intro s f hf c gone unit shadowed held full recorded left
  have hrec : storeTaken s f = recorded := rfl
  have hfull : storeFull s f = full := rfl
  have hleft (o : AccessOutcome) : outcomeLeft s f o = left o := by cases o <;> rfl
  refine ⟨fun hready o => ?_, fun hready o => ⟨fun hst => ?_, fun hst hl => ?_, fun hst hl => ?_⟩, fun sc st hready hst hin => ?_⟩
  · rw [endAccess_reset hready, hleft]
  · rw [endAccess_aborting hready o hst, hleft]
  · rw [endAccess_faulted hready o hst, releaseLock_left, if_neg (ne_true_of_eq_false hl), hleft]
  · rw [endAccess_faulted hready o hst, releaseLock_left, if_pos hl, hleft]
  · intro a strict warned goes moves
    obtain ⟨hs, he, hc⟩ := id hin
    have hsR : ((storeTaken s f).chan c).script = some sc := by rw [storeTaken_chan]; exact hs
    have hstep : gone.step? c = some st := step?_current (s := gone) hs hc
    have hstepR : (storeTaken s f).step? c = some st := step?_current hsR hc
    have hdone := endAccess_done (f := f) hready hst
    rw [hrec, hfull] at hdone
    rw [hrec] at hsR hstepR
    refine ⟨fun e => endAccess_failed hready hst e hin, fun x hp => ⟨fun hstrict => ?_, fun hstrict => ?_⟩, fun hw => ?_, ?_⟩
    · rw [hdone, stepDone_write hstepR hp, finishWrite_strict hsR st hstrict, carrySteps_endScript]
    · rw [hdone, stepDone_write hstepR hp, finishWrite_ends hsR st hstrict]
    · have hread := endAccess_read (f := f) hready hst (hw := hw)
      have past (p : Progress) := setProgress_script (s := gone) hs hc p
      have pastStep (p : Progress) := setProgress_step? (s := gone) hs hc p
      refine ⟨fun v hp => ?_, fun v hp => ?_, fun v tries last hp => ?_, fun v d n x hp => ?_⟩
      · rw [hread, stepDone_read hstep hp, continue_moves (s := s) (setProgress_st gone c _) (past _) rfl (by simp) hst
          (fun _ => act_of_readValue (pastStep _) rfl), slotBytes_eq]
        rfl
      · intro t
        rw [hread, stepDone_modRead hstep hp, continue_goes (s := gone) hs hc hst (by simp) (act_of_modWrite (pastStep _) rfl)]
        rfl
      · intro t hit
        refine ⟨fun hh => ?_, fun hh ht hsoft => ?_, fun hh ht hsoft => ?_, fun hh ht hi => ?_, fun hh ht hi => ?_⟩
        · rw [hread, stepDone_poll hstep hp, pollTried_hit tries v hh]
        · rw [hread, stepDone_poll hstep hp, pollTried_fails (s := gone) hs hc v hh ht hsoft, carrySteps_endScript]
        · rw [hread, stepDone_poll hstep hp, pollTried_soft v hh ht hsoft]
        · rw [hread, stepDone_poll hstep hp, pollTried_again v hh ht hi,
            continue_goes (s := gone) hs hc hst (by simp) (act_poll (pastStep _) rfl)]
          rfl
        · rw [hread, stepDone_poll hstep hp]
          exact congrArg settle (pollTried_waits (s := gone) hs hc v hh ht hi hst)
      · intro next
        rw [hread, stepDone_blockIn hstep hp, nextAddr_eq, continue_moves (s := s) (setProgress_st gone c _) (past _) rfl (by simp) hst
          (fun _ => act_of_blockIn_value (pastStep _) rfl), slotBytes_eq]
        rfl
    · intro x d n v hp next t
      have hgoes := hdone x
      rw [stepDone_blockOut hstepR hp, nextAddr_eq] at hgoes
      have ht : (t.chan c).script = some { sc with current := some { st with progress := .blockOut (d + 1) next none } } :=
        setProgress_script hsR hc _
      have htst : (t.chan c).st = (s.chan c).st := (setProgress_st recorded c _).trans (by rw [← hrec, storeTaken_chan])
      obtain ⟨w, hw⟩ := warned_script ht full
      have hwst : ((warned t).chan c).st = (s.chan c).st := (warned_st full).trans htst
      have hwstep : (warned t).step? c = some { st with progress := .blockOut (d + 1) next none } := step?_current hw rfl
      refine ⟨fun hstrict => ?_, fun hstrict => ⟨fun hlast => ?_, fun hmore hnext => ?_, fun hmore hnext hrun => ?_⟩⟩
      · rw [hgoes, blockOutDone_strict hsR hc d next hstrict, carrySteps_endScript]
      · rw [hgoes, blockOutDone_goes hsR hc d next hstrict, if_pos hlast]
        rfl
      · have hact (hrun : (s.chan c).st = .running) : act (warned t) c =
            startData (warned t) c (.slotRead (hostAdd (StepRecord.hostAddr st.bits) (2 * (d + 1)))) := by
          rw [act_of_blockOut hwstep rfl, if_pos (hnext.resolve_right (by rw [hrun]; simp))]
        rw [hgoes, blockOutDone_goes hsR hc d next hstrict, if_neg hmore]
        exact congrArg settle (continue_moves (s := s) (t := warned t) hwst hw rfl (by simp) hst hact)
      · have hact : act (warned t) c = endScript (warned t) c .regionMiss sc.ordinals (BitVec.ofNat 32 (d + 1)) := by
          rw [act_of_blockOut hwstep rfl, if_neg (Nat.not_le.mpr hnext), ordinalOf_script hw]
        have hcont : continueStep (warned t) c = act (warned t) c := if_pos (hwst.trans hrun)
        rw [hgoes, blockOutDone_goes hsR hc d next hstrict, if_neg hmore]
        refine congrArg settle ((congrArg (fun t => carrySteps t c) (hcont.trans hact)).trans ?_)
        exact carrySteps_endScript ..

end Sys2Proof.Machine
end

section
/-! PROOF. The ownership states as each is entered, and the timers of the port (R105, R108, R110, R113 to R118, R125, R129,
R211). -/

namespace Sys2Proof.Machine

open Sys2Proof.Safety

/-! ## The ownership states as each is entered -/

theorem startTimer_eq (n : Nat) : startTimer n = if n = 0 then none else some n := rfl

theorem enterHolding_eq (s : State) : enterHolding s = { s with own := { s.own with
    state := .holding, turnTimer := none, holdPassed := false,
    holdTimer := if s.own.mode = .guest ∧ s.own.params.holdLimit ≠ 0 then some s.own.params.holdLimit else none } } := by
  have htimer : (if s.own.mode = .guest then startTimer s.own.params.holdLimit else none) =
      if s.own.mode = .guest ∧ s.own.params.holdLimit ≠ 0 then some s.own.params.holdLimit else none := by
    unfold startTimer
    by_cases hm : s.own.mode = .guest <;> by_cases hl : s.own.params.holdLimit = 0 <;> simp [hm, hl]
  unfold enterHolding
  rw [htimer]

theorem enterHolding_of_ne {s : State} (h : s.own.mode ≠ .guest) : enterHolding s = { s with own := { s.own with
    state := .holding, turnTimer := none, holdPassed := false, holdTimer := none } } := by
  rw [enterHolding_eq, if_neg fun hg => h hg.1]

theorem enterSettling_turns {s : State} (h : s.own.params.turnaround ≠ 0) : enterSettling s = { s with own := { s.own with
    state := .settling, turnTimer := some s.own.params.turnaround } } := if_neg h

theorem enterSettling_holds {s : State} (h : s.own.params.turnaround = 0) : enterSettling s = enterHolding s := if_pos h

/-- A GUEST's port, RELEASED, asks for the bus where a request is presented and GNT is low (R116). -/
theorem askBus_released {s : State} (hm : s.own.mode = .guest) (hst : s.own.state = .released) :
    askBus s = { s with own := { s.own with
      state := if s.own.gnt = true ∨ ∀ c, s.presentedOf c = none then .released else .requesting } } := by
  unfold askBus
  by_cases h : s.own.gnt = true ∨ ∀ c, s.presentedOf c = none
  · rw [if_pos h, if_neg, ← hst]
    rintro ⟨-, -, hn, hg⟩
    rcases h with h | h
    · cases h.symm.trans hg
    · cases ((noneP_iff s).mpr h).symm.trans hn
  · rw [if_neg h, if_pos]
    rw [not_or, Bool.not_eq_true] at h
    exact ⟨hm, hst, by rw [← Bool.not_eq_true, noneP_iff]; exact h.2, h.1⟩

/-- The Ownership Controller as a mode is entered (R125). -/
def enteredOwn (s : State) : PortMode → Ownership
  | .isolated => { s.own with mode := .isolated, passage := none, turnTimer := none }
  | .master =>
    if s.own.req then
      { s.own with
        mode := .master, passage := none, turnTimer := none, state := .granted,
        leaseTimer := if s.own.params.leaseLimit = 0 then none else some s.own.params.leaseLimit }
    else if s.own.params.turnaround = 0 then
      { s.own with mode := .master, passage := none, turnTimer := none, state := .holding, holdTimer := none, holdPassed := false }
    else { s.own with mode := .master, passage := none, state := .settling, turnTimer := some s.own.params.turnaround }
  | .guest => { s.own with
      mode := .guest, passage := none, turnTimer := none,
      state := if s.own.gnt = true ∨ ∀ c, s.presentedOf c = none then .released else .requesting }

theorem enterMode_eq (s : State) (m : PortMode) : enterMode s m = { s with own := enteredOwn s m } := by
  cases m with
  | isolated => rfl
  | master =>
    unfold enterMode enteredOwn
    dsimp only
    by_cases hreq : s.own.req = true
    · rw [if_pos hreq, if_pos hreq]
      rfl
    · rw [if_neg hreq, if_neg hreq]
      by_cases ht : s.own.params.turnaround = 0
      · rw [if_pos ht, enterSettling_holds (by exact ht), enterHolding_of_ne (by simp)]
      · rw [if_neg ht, enterSettling_turns (by exact ht)]
  | guest => exact (askBus_released (by rfl) (by rfl)).trans rfl

theorem enteredOwn_answers (s : State) (m : PortMode) : (enteredOwn s m).answers = s.own.answers := by
  cases m with
  | isolated => rfl
  | guest => rfl
  | master =>
    unfold enteredOwn
    dsimp only
    split
    · rfl
    · split <;> rfl

/-! ## Answers that a bridge reset may have abandoned (R125, R129, R133) -/

/-- The command that a passage or pulse still answers is answered, and no other. -/
def answeredIf (t : State) (on : AdminWait) (d : Detail) : State :=
  if t.own.answers then adminDone { t with own := { t.own with answers := false } } on .ok d else t

theorem answeredIf_waiting {t : State} {on : AdminWait} {d : Detail} {id : BitVec 16} (h : t.own.answers = true)
    (hw : t.admin.progress = .waiting id on) :
    answeredIf t on d = adminAnswer { t with own := { t.own with answers := false } } id .ok d :=
  (if_pos h).trans (adminDone_waiting _ _ hw)

theorem answeredIf_silent {t : State} {on : AdminWait} {d : Detail}
    (h : t.own.answers = false ∨ ∀ id, t.admin.progress ≠ .waiting id on) :
    answeredIf t on d = { t with own := { t.own with answers := false } } := by
  unfold answeredIf
  rcases h with h | h
  · rw [if_neg (by simp [h]), ← h]
  · split
    · exact adminDone_other _ _ h
    · rename_i hno
      rw [← Bool.not_eq_true _ |>.mp hno]

theorem answeredIf_own (t : State) (on : AdminWait) (d : Detail) :
    (answeredIf t on d).own = { t.own with answers := false } ∧ (answeredIf t on d).arb = t.arb := by
  unfold answeredIf
  split
  · obtain ⟨a, -, e⟩ := adminDone_frame { t with own := { t.own with answers := false } } on .ok d
    rw [e]
    exact ⟨rfl, rfl⟩
  · rename_i hno
    rw [← Bool.not_eq_true _ |>.mp hno]
    exact ⟨rfl, rfl⟩

theorem endPassage_eq (s : State) (m : PortMode) : endPassage s m = answeredIf { s with own := enteredOwn s m } .portMode 0 := by
  unfold endPassage answeredIf
  rw [enterMode_eq]
  dsimp only
  rw [enteredOwn_answers]

theorem answerPulse_eq (s : State) (n : Nat) : answerPulse s n = answeredIf s .pulse (BitVec.ofNat 32 n) := rfl

/-! ## Lock breaks (R113 to R115) -/

/-- The lock and the holder's request are gone (R114). -/
def lockGone (s : State) (h : ChanId) : State :=
  { s with
    arb := { s.arb with lock := none, presented := s.arb.presented.set h none },
    own := { s.own with lockTimer := none } }

theorem breakLock_of_held {s : State} {h : ChanId} {k : LockKind} (hl : s.arb.lock = some (h, k)) :
    breakLock s = lockBroken (lockGone s h) h := by
  unfold breakLock
  rw [hl]
  rfl

/-- A channel that is not running, pausing or paused, or that has no script to end, is not reached by a break (R115). -/
theorem lockBroken_self {s : State} {h : ChanId}
    (hno : ¬ ((s.chan h).st = .running ∨ (s.chan h).st = .pausing ∨ (s.chan h).st = .paused) ∨ ¬ Unended s h) :
    lockBroken s h = s := by
  unfold lockBroken
  dsimp only
  split
  · rename_i sc hs
    refine if_neg ?_
    simp only [Bool.and_eq_true, Bool.or_eq_true, beq_iff_eq, Option.isNone_iff_eq_none, or_assoc]
    rintro ⟨he, hst⟩
    rcases hno with hno | hno
    · exact hno hst
    · exact hno ⟨sc, hs, he⟩
  · rfl

/-! ## A reset of the boards (R129, R130) -/

theorem boardsReset_eq (s : State) (src : Nat) : boardsReset s src = raiseEvent { s with
    shadow := [], attn := s.attn.map fun l => { l with count := 0, saturated := false } } .brstReset src 0 := rfl

theorem boardsReset_frame (s : State) (src : Nat) : ∃ e, boardsReset s src = { s with
    shadow := [], attn := s.attn.map fun l => { l with count := 0, saturated := false }, events := e } :=
  raiseEvent_frame { s with
    shadow := [], attn := s.attn.map fun l => { l with count := 0, saturated := false } } .brstReset src 0

end Sys2Proof.Machine
end

section
/-! PROOF. The timers of the port run out, and the timebase wraps (R105, R110 to R118, R125 to R130, R133, R211). -/

namespace Sys2Proof.Machine

open Sys2Proof.Safety

section
variable {s : State}

/-! ## Turnaround, lease and hold timer -/

theorem turnaroundRunsOut_settles (ht : s.own.turnTimer.isSome = true) (hp : s.own.passage = none) (hst : s.own.state = .settling) :
    turnaroundRunsOut s = settle (enterHolding s) := by
  unfold turnaroundRunsOut
  rw [if_pos ht, hp]
  exact if_pos hst

theorem turnaroundRunsOut_passes {m : PortMode} (ht : s.own.turnTimer.isSome = true) (hp : s.own.passage = some m) :
    turnaroundRunsOut s = settle (endPassage s m) := by
  unfold turnaroundRunsOut
  rw [if_pos ht, hp]

theorem leaseRunsOut_raises (hst : s.own.state = .granted) (ht : s.own.leaseTimer.isSome = true) :
    leaseRunsOut s = raiseEvent { s with own := { s.own with leaseTimer := none } } .leaseOverrun 0 0 := if_pos ⟨hst, ht⟩

theorem holdTimerRunsOut_passes (hst : s.own.state = .holding) (ht : s.own.holdTimer.isSome = true) :
    holdTimerRunsOut s = settle { s with own := { s.own with holdTimer := none, holdPassed := true } } := if_pos ⟨hst, ht⟩

/-! ## Lock timer (R113, R114) -/

section
variable (ht : s.own.lockTimer.isSome = true)
include ht

theorem lockTimerRunsOut_waits (hf : s.arb.inflight.isSome = true) :
    lockTimerRunsOut s = { s with own := { s.own with lockTimer := none, breakDue := true } } := (if_pos ht).trans (if_pos hf)

theorem lockTimerRunsOut_breaks (hf : s.arb.inflight = none) :
    lockTimerRunsOut s = settle (breakLock { s with own := { s.own with lockTimer := none } }) :=
  (if_pos ht).trans (if_neg (by simp [hf]))

end

/-! ## Pulse (R129, R130) -/

/-- The state at the end of a pulse, its command answered. -/
def pulseDone (s : State) : State := answeredIf
  (enterHolding (boardsReset { s with own := { s.own with pulseTimer := none } } 0)) .pulse (BitVec.ofNat 32 s.shadow.length)

theorem pulseDone_own (s : State) : (pulseDone s).own.brst = s.own.brst ∧ (pulseDone s).arb = s.arb := by
  obtain ⟨e, h⟩ := boardsReset_frame { s with own := { s.own with pulseTimer := none } } 0
  obtain ⟨hown, harb⟩ := answeredIf_own (enterHolding (boardsReset { s with own := { s.own with pulseTimer := none } } 0)) .pulse
    (BitVec.ofNat 32 s.shadow.length)
  unfold pulseDone
  rw [hown, harb, enterHolding_eq, h]
  exact ⟨rfl, rfl⟩

section
variable (hst : s.own.state = .pulsing) (ht : s.own.pulseTimer.isSome = true)
include hst ht

theorem endPulse_eq : endPulse s = settle (if (pulseDone s).own.brst then observeReset (pulseDone s) else pulseDone s) :=
  if_pos ⟨hst, ht⟩

theorem endPulse_low (hb : s.own.brst = false) : endPulse s = settle (pulseDone s) := by
  rw [endPulse_eq hst ht, if_neg (by simp [(pulseDone_own s).1, hb])]

theorem endPulse_high (hb : s.own.brst = true) (hf : s.arb.inflight = none) : endPulse s = settle (boardsReset (pulseDone s) 1) := by
  have hf' : (pulseDone s).arb.inflight = none := by rw [(pulseDone_own s).2, hf]
  rw [endPulse_eq hst ht, if_pos ((pulseDone_own s).1.trans hb), observeReset, hf']

end

/-! ## Change timer and timebase -/

theorem changeTimerRunsOut_answers {cmd : PortCmd} {id : BitVec 16} (hc : s.own.cmd = some cmd)
    (ht : s.own.changeTimer.isSome = true) (hw : s.admin.progress = .waiting id cmd.wait) : changeTimerRunsOut s =
      adminAnswer { s with own := { s.own with cmd := none, changeTimer := none } } id .timedOut
        (BitVec.ofNat 32 s.own.state.code) := by
  obtain ⟨n, hn⟩ := Option.isSome_iff_exists.mp ht
  unfold changeTimerRunsOut
  rw [hc, hn]
  exact adminDone_waiting _ _ hw

end

/-- Settles O58, by the timer. -/
theorem portTimersRunOut : Obligations.PortTimersRunOut := by
  intro s held left turn lease entered answered
  have hheld (t : State) : enterHolding t = held t := enterHolding_eq t
  have hentered (m : PortMode) : enteredOwn s m = entered m := by cases m <;> rfl
  have answers (t : State) (on : AdminWait) (d : Detail) (ha : t.admin = s.admin) (ho : t.own.answers = s.own.answers) :
      answered t on d (answeredIf t on d) :=
    ⟨fun id h hw => answeredIf_waiting (ho.trans h) (by rw [ha, hw]),
      fun h => answeredIf_silent (h.imp (fun h => ho.trans h) fun h id => by rw [ha]; exact h id)⟩
  refine ⟨fun ht => ⟨fun hp hst => ?_, fun m hp => ?_⟩, fun hst ht => ?_, fun ht => ⟨fun hf => ?_, fun hf => ⟨fun hl => ?_, fun h k hl => ?_⟩⟩,
    fun hst ht => ?_, fun hst ht => ?_, fun cmd id hc ht hw => ?_, fun hready htime => ?_⟩
  · rw [← hheld]
    exact congrArg Host.Outcome.next (turnaroundRunsOut_settles ht hp hst)
  · refine ⟨endPassage s m, congrArg Host.Outcome.next (turnaroundRunsOut_passes ht hp), ?_⟩
    rw [endPassage_eq, hentered]
    exact answers _ _ _ rfl (by rw [← hentered]; exact enteredOwn_answers s m)
  · exact congrArg Host.Outcome.next (leaseRunsOut_raises hst ht)
  · exact congrArg Host.Outcome.next (lockTimerRunsOut_waits ht hf)
  · exact congrArg Host.Outcome.next ((lockTimerRunsOut_breaks ht hf).trans (congrArg settle (breakLock_none hl)))
  · intro free reached
    have hbreak : exec .lockTimerExpiry s = .next (settle (lockBroken free h)) :=
      congrArg Host.Outcome.next ((lockTimerRunsOut_breaks ht hf).trans
        (congrArg settle (breakLock_of_held (s := { s with own := { s.own with lockTimer := none } }) hl)))
    refine ⟨fun sc hr hs he => ?_, fun hno => ?_⟩
    · rw [hbreak]
      exact congrArg (fun t => Host.Outcome.next (settle t)) (lockBroken_active (s := free) hs he hr)
    · rw [hbreak]
      exact congrArg (fun t => Host.Outcome.next (settle t)) (lockBroken_self (s := free) hno)
  · exact congrArg Host.Outcome.next (holdTimerRunsOut_passes hst ht)
  · intro emptied
    refine ⟨pulseDone s, ?_, fun hb => ?_, fun hb hf => ?_⟩
    · obtain ⟨e, hboards⟩ := boardsReset_frame { s with own := { s.own with pulseTimer := none } } 0
      have hs : held (emptied { s with own := { s.own with pulseTimer := none } } 0) =
          enterHolding (boardsReset { s with own := { s.own with pulseTimer := none } } 0) := (hheld _).symm
      rw [hs]
      refine answers _ _ _ ?_ ?_
      · rw [enterHolding_eq, hboards]
      · rw [enterHolding_eq, hboards]
    · exact congrArg Host.Outcome.next (endPulse_low hst ht hb)
    · exact congrArg Host.Outcome.next (endPulse_high hst ht hb hf)
  · have hw' : s.admin.progress = .waiting id cmd.wait := by rw [hw]; cases cmd <;> rfl
    exact congrArg Host.Outcome.next (changeTimerRunsOut_answers hc ht hw')
  · have hinit : s.initialising = false := by
      rw [← Bool.not_eq_true, initialising_iff]
      rintro ⟨h, -⟩
      cases hready.symm.trans h
    have hwrap : (!s.initialising && s.timebase == BitVec.allOnes 32) = true := by
      rw [hinit, htime]
      rfl
    exact congrArg Host.Outcome.next (if_pos hwrap)

end Sys2Proof.Machine
end

section
/-! PROOF. Changes of REQ, GNT and BRST (R72, R87, R106 to R112, R116, R117, R119, R124, R130, R132). -/

namespace Sys2Proof.Machine

open Sys2Proof.Safety

section
variable {s : State}

/-! ## REQ (R107, R109, R112) -/

theorem reqRises_self (h : s.own.req = true) : reqRises s = s := if_pos h

theorem reqRises_low (h : s.own.req = false) : reqRises s = settle { s with own := { s.own with
    req := true,
    lockTimer := if s.own.mode = .master ∧ s.own.state = .holding ∧ s.arb.lock.isSome = true ∧
      s.own.lockTimer = none ∧ s.own.breakDue = false then
        if s.own.params.lockLimit = 0 then none else some s.own.params.lockLimit
      else s.own.lockTimer } } := by
  refine (if_neg (by simp [h])).trans (congrArg settle ?_)
  unfold startLockTimer
  by_cases hc : s.own.mode = .master ∧ s.own.state = .holding ∧ s.arb.lock.isSome = true ∧
      s.own.lockTimer = none ∧ s.own.breakDue = false
  · obtain ⟨h1, h2, h3⟩ := id hc
    rw [if_pos hc, if_pos ⟨h1, h2, rfl, h3⟩]
    rfl
  · rw [if_neg hc, if_neg]
    rintro ⟨h1, h2, -, h3⟩
    exact hc ⟨h1, h2, h3⟩

theorem reqFalls_self (h : s.own.req = false) : reqFalls s = s := if_neg (by simp [h])

section
variable (h : s.own.req = true)
include h

theorem reqFalls_claim (hno : ¬ (s.own.mode = .master ∧ s.own.state = .granted)) :
    reqFalls s = { s with own := { s.own with req := false, lockTimer := none } } := (if_pos h).trans (if_neg hno)

theorem reqFalls_lease (hm : s.own.mode = .master) (hst : s.own.state = .granted) :
    reqFalls s = settle (endLease { s with own := { s.own with req := false, lockTimer := none } }) :=
  (if_pos h).trans (if_pos ⟨hm, hst⟩)

end

theorem changeIfWaiting_some {m : PortMode} {p : PortParams} (h : s.own.cmd = some (.setMode m p)) :
    changeIfWaiting s = some (changeMode s m p) := by
  unfold changeIfWaiting
  rw [h]

theorem changeIfWaiting_none (h : ∀ m p, s.own.cmd ≠ some (.setMode m p)) : changeIfWaiting s = none := by
  unfold changeIfWaiting
  split
  · rename_i m p hc
    exact absurd hc (h m p)
  · rfl

theorem endLease_changes {m : PortMode} {p : PortParams} (h : s.own.cmd = some (.setMode m p)) :
    endLease s = changeMode { s with own := { s.own with leaseTimer := none } } m p := by
  unfold endLease
  dsimp only
  rw [changeIfWaiting_some (s := { s with own := { s.own with leaseTimer := none } }) h]

theorem endLease_settles (h : ∀ m p, s.own.cmd ≠ some (.setMode m p)) :
    endLease s = enterSettling { s with own := { s.own with leaseTimer := none } } := by
  unfold endLease
  dsimp only
  rw [changeIfWaiting_none (s := { s with own := { s.own with leaseTimer := none } }) h]

/-! ## GNT (R116, R117, R119) -/

theorem gntRises_self (h : s.own.gnt = true) : gntRises s = s := if_pos h

theorem gntFalls_self (h : s.own.gnt = false) : gntFalls s = s := if_neg (by simp [h])

section
variable (h : s.own.gnt = false)
include h

theorem gntRises_takes (hm : s.own.mode = .guest) (hst : s.own.state = .requesting) :
    gntRises s = settle (enterSettling { s with own := { s.own with gnt := true } }) :=
  (if_neg (by simp [h])).trans (if_pos ⟨hm, hst⟩)

theorem gntRises_follows (hno : ¬ (s.own.mode = .guest ∧ s.own.state = .requesting)) :
    gntRises s = { s with own := { s.own with gnt := true } } := (if_neg (by simp [h])).trans (if_neg hno)

end

section
variable (h : s.own.gnt = true)
include h

theorem gntFalls_follows (hm : s.own.mode ≠ .guest) : gntFalls s = { s with own := { s.own with gnt := false } } :=
  (if_pos h).trans (if_neg hm)

variable (hm : s.own.mode = .guest)
include hm

theorem gntFalls_asks (hst : s.own.state = .released ∨ s.own.state = .requesting) :
    gntFalls s = askBus { s with own := { s.own with gnt := false } } := by
  refine (if_pos h).trans ((if_pos hm).trans (if_neg ?_))
  rintro (hs | hs) <;> rcases hst with hst | hst <;> cases hs.symm.trans hst

variable (hst : s.own.state = .holding ∨ s.own.state = .settling)
include hst

theorem gntFalls_waits (hf : s.arb.inflight.isSome = true) :
    gntFalls s = { s with own := { s.own with gnt := false, preemptDue := true } } :=
  (if_pos h).trans ((if_pos hm).trans ((if_pos hst).trans (if_pos hf)))

theorem gntFalls_preempts (hf : s.arb.inflight = none) :
    gntFalls s = settle (preempt { s with own := { s.own with gnt := false } }) :=
  (if_pos h).trans ((if_pos hm).trans ((if_pos hst).trans (if_neg (by simp [hf]))))

end

/-- In RELEASED or REQUESTING with GNT low, REQ is asserted where a request is presented (R116). -/
theorem askBus_low (hm : s.own.mode = .guest) (hg : s.own.gnt = false)
    (hst : s.own.state = .released ∨ s.own.state = .requesting) :
    askBus s = if ∀ c, s.presentedOf c = none then s else { s with own := { s.own with state := .requesting } } := by
  rcases hst with hst | hst
  · rw [askBus_released hm hst]
    by_cases hn : ∀ c, s.presentedOf c = none
    · rw [if_pos hn, if_pos (.inr hn), ← hst]
    · rw [if_neg hn, if_neg (not_or.mpr ⟨by simp [hg], hn⟩)]
  · have hself : askBus s = s := if_neg fun hc => by cases hc.2.1.symm.trans hst
    rw [hself, ← hst]
    exact (ite_self s).symm

/-! ## Preemption (R119, R124) -/

theorem preempt_changes {m : PortMode} {p : PortParams} (hc : (breakLock s).own.cmd = some (.setMode m p)) :
    preempt s = changeMode (busLost (breakLock s) .released) m p := by
  have hcmd : (busLost (breakLock s) .released).own.cmd = some (.setMode m p) := by rw [busLost_cmd, hc]
  have hchange := changeIfWaiting_some hcmd
  unfold preempt
  dsimp only
  rw [← busLost, hchange]

theorem preempt_asks (hc : ∀ m p, (breakLock s).own.cmd ≠ some (.setMode m p)) (hm : (breakLock s).own.mode = .guest) :
    preempt s = busLost (breakLock s) (if (breakLock s).own.gnt = true ∨ ∀ c, (breakLock s).presentedOf c = none then .released
      else .requesting) := by
  have hcmd : ∀ m p, (busLost (breakLock s) .released).own.cmd ≠ some (.setMode m p) := by rw [busLost_cmd]; exact hc
  have hchange := changeIfWaiting_none hcmd
  unfold preempt
  dsimp only
  rw [← busLost, hchange, ← askBus_busLost hm]

/-- A break changes the Ownership Controller by its lock timer alone, and the presented set by the holder's request. -/
theorem breakLock_frame {h : ChanId} {k : LockKind} (hl : s.arb.lock = some (h, k)) :
    (breakLock s).own = { s.own with lockTimer := none } ∧
      ∀ c, (breakLock s).presentedOf c = none ↔ c = h ∨ s.presentedOf c = none := by
  have hgone (c : ChanId) : (lockGone s h).presentedOf c = none ↔ c = h ∨ s.presentedOf c = none := by
    have hw := withdraw_presented_iff s h c
    rw [← not_iff_not, not_or]
    exact hw
  rw [breakLock_of_held hl]
  unfold lockBroken
  dsimp only
  split
  · split
    · have hfree : releaseLock (lockGone s h) h = lockGone s h := rfl
      refine ⟨by rw [endScript_own, hfree]; rfl, fun c => ?_⟩
      have hw := withdraw_presented_iff (lockGone s h) h c
      rw [presentedOf_congr (s := withdraw (lockGone s h) h) c (by rw [endScript_arb, hfree]), ← not_iff_not]
      refine hw.trans ?_
      rw [not_or, ne_eq, ne_eq, hgone, not_or]
      exact ⟨fun hh => hh.2, fun hh => ⟨hh.1, hh⟩⟩
    · exact ⟨rfl, hgone⟩
  · exact ⟨rfl, hgone⟩

/-! ## BRST (R72, R87, R130) -/

theorem brstAsserted_self (h : s.own.brst = true) : brstAsserted s = s := if_pos h

theorem brstReleased_self (h : s.own.brst = false) : brstReleased s = s := if_neg (by simp [h])

theorem brstReleased_high (h : s.own.brst = true) : brstReleased s = settle { s with own := { s.own with brst := false } } := if_pos h

theorem brstAsserted_low (h : s.own.brst = false) : brstAsserted s =
    if s.own.state = .pulsing ∨ s.initialising = true then { s with own := { s.own with brst := true } }
    else observeReset { s with own := { s.own with brst := true } } := if_neg (by simp [h])

theorem observeReset_none (h : s.arb.inflight = none) : observeReset s = boardsReset s 1 := by
  unfold observeReset
  rw [h]

theorem observeReset_some {f : InFlight} (h : s.arb.inflight = some f) :
    observeReset s = boardsReset (endAccess s f (.failed .resetDuringAccess)) 1 := by
  unfold observeReset
  rw [h]

end

/-- Settles O59, by the line, its level, and the state of the port. -/
theorem busLinesChange : Obligations.BusLinesChange := by
  intro s turn lockTimer
  refine ⟨fun h => congrArg Host.Outcome.next (reqRises_self h), fun h => ⟨congrArg Host.Outcome.next (reqFalls_self h),
      congrArg Host.Outcome.next (reqRises_low h)⟩, fun h => ⟨fun hno => congrArg Host.Outcome.next (reqFalls_claim h hno),
      fun hm hst => ⟨fun m p hc => ?_, fun hc => ⟨fun ht => ?_, fun ht => ?_⟩⟩⟩, fun h => congrArg Host.Outcome.next (gntRises_self h),
    fun h => ⟨congrArg Host.Outcome.next (gntFalls_self h), fun hm hst => ⟨fun ht => ?_, fun ht => ?_⟩,
      fun hno => congrArg Host.Outcome.next (gntRises_follows h hno)⟩, fun h => ?_, ?_⟩
  · exact congrArg Host.Outcome.next ((reqFalls_lease h hm hst).trans (congrArg settle
      (endLease_changes (s := { s with own := { s.own with req := false, lockTimer := none } }) hc)))
  · exact congrArg Host.Outcome.next ((reqFalls_lease h hm hst).trans (congrArg settle
      ((endLease_settles (s := { s with own := { s.own with req := false, lockTimer := none } }) hc).trans
        (enterSettling_turns (s := { s with own := { s.own with req := false, lockTimer := none, leaseTimer := none } }) ht))))
  · have hholds := (enterSettling_holds (s := { s with own := { s.own with req := false, lockTimer := none, leaseTimer := none } }) ht).trans
      (enterHolding_of_ne (by rw [hm]; simp))
    exact congrArg Host.Outcome.next ((reqFalls_lease h hm hst).trans (congrArg settle
      ((endLease_settles (s := { s with own := { s.own with req := false, lockTimer := none } }) hc).trans hholds)))
  · exact congrArg Host.Outcome.next ((gntRises_takes h hm hst).trans (congrArg settle
      (enterSettling_turns (s := { s with own := { s.own with gnt := true } }) ht)))
  · have hholds := (enterSettling_holds (s := { s with own := { s.own with gnt := true } }) ht).trans (enterHolding_eq _)
    have htimer : (if s.own.mode = .guest ∧ s.own.params.holdLimit ≠ 0 then some s.own.params.holdLimit else none) =
        if s.own.params.holdLimit = 0 then none else some s.own.params.holdLimit := by
      by_cases hl : s.own.params.holdLimit = 0 <;> simp [hm, hl]
    dsimp only at hholds
    rw [htimer] at hholds
    exact congrArg Host.Outcome.next ((gntRises_takes h hm hst).trans (congrArg settle hholds))
  · intro low out
    refine ⟨fun hm => congrArg Host.Outcome.next (gntFalls_follows h hm), fun hm hst => ?_, fun hm hst => ⟨fun hf =>
      congrArg Host.Outcome.next (gntFalls_waits h hm hst hf), fun hf => ?_⟩⟩
    · exact congrArg Host.Outcome.next ((gntFalls_asks h hm hst).trans (askBus_low (s := low) hm rfl hst))
    · have hexec : exec .gntFall s = .next (settle (preempt low)) := congrArg Host.Outcome.next (gntFalls_preempts h hm hst hf)
      refine ⟨fun hl => ⟨fun m p hc => ?_, fun hc => ?_⟩, fun k kind hl => ?_⟩
      · have hself : breakLock low = low := breakLock_none hl
        rw [hexec, preempt_changes (by rw [hself]; exact hc), hself]
        rfl
      · have hself : breakLock low = low := breakLock_none hl
        have hasks := preempt_asks (s := low) (by rw [hself]; exact hc) (by rw [hself]; exact hm)
        rw [hself] at hasks
        rw [hexec, hasks]
        refine congrArg (fun st => Host.Outcome.next (settle (busLost low st))) ?_
        exact if_congr (or_iff_right (by simp [low])) rfl rfl
      · intro free reached
        obtain ⟨hown, hpresented⟩ := breakLock_frame (s := low) hl
        have hbroken : breakLock low = lockBroken free k := breakLock_of_held (s := low) hl
        refine ⟨breakLock low, fun sc hr hs he => ?_, fun hno => ?_, fun m p hc => ?_, fun hc => ?_⟩
        · rw [hbroken]
          exact lockBroken_active (s := free) hs he hr
        · rw [hbroken]
          exact lockBroken_self (s := free) hno
        · rw [hexec, preempt_changes (by rw [hown]; exact hc)]
          rfl
        · rw [hexec, preempt_asks (by rw [hown]; exact hc) (by rw [hown]; exact hm)]
          refine congrArg (fun st => Host.Outcome.next (settle (busLost (breakLock low) st))) (if_congr ?_ rfl rfl)
          rw [hown]
          refine (or_iff_right (by simp [low])).trans (forall_congr' fun c => ?_)
          rw [hpresented, ne_eq, ← or_iff_not_imp_left]
          rfl
  · intro observed
    refine ⟨fun h => ⟨congrArg Host.Outcome.next (brstAsserted_self h), congrArg Host.Outcome.next (brstReleased_high h)⟩, fun h => ?_⟩
    intro high
    refine ⟨congrArg Host.Outcome.next (brstReleased_self h), fun hp hr => ?_, fun hp => ?_⟩
    · have hno : ¬ (s.own.state = .pulsing ∨ s.initialising = true) := by
        rw [initialising_iff]
        rintro (hs | ⟨h1, h2⟩)
        · exact hp hs
        · rcases hr with hr | hr
          · cases hr.symm.trans h1
          · exact hr h2
      have hobs : exec .observedReset s = .next (observeReset high) :=
        congrArg Host.Outcome.next ((brstAsserted_low h).trans (if_neg hno))
      refine ⟨fun hf => ?_, fun f hf => ?_⟩
      · rw [hobs, observeReset_none (s := high) hf]
        rfl
      · rw [hobs, observeReset_some (s := high) hf]
        rfl
    · refine congrArg Host.Outcome.next ((brstAsserted_low h).trans (if_pos ?_))
      rw [initialising_iff]
      exact hp

end Sys2Proof.Machine
end

section
/-! PROOF. SET_PORT_MODE to another mode: at once, at a yield point, and through a passage (R75, R110, R116, R124 to R126). -/

namespace Sys2Proof.Machine

open Sys2Proof.Safety

/-! ## A mode is left (R75, R125) -/

theorem isolateChan_eq (s : State) (c : ChanId) : isolateChan s c =
    if s.presentedOf c = none then s else failAccess (s.setPresented c none) c .portIsolated := by
  unfold isolateChan
  split
  · rename_i r hr
    rw [if_neg (by rw [hr]; simp)]
    rfl
  · rename_i hr
    rw [if_pos hr]

theorem isolateChan_cases (s : State) (c : ChanId) : isolateChan s c = s ∨ isolateChan s c = withdraw s c ∨
    ∃ o d, isolateChan s c = endScript (withdraw s c) c .portIsolated o d := by
  rw [isolateChan_eq]
  split
  · exact .inl rfl
  · unfold failAccess
    split
    · exact .inr (.inr ⟨_, _, rfl⟩)
    · exact .inr (.inl rfl)

theorem endScript_admin (s : State) (c : ChanId) (st : Status) (o : Nat) (d : Detail) : (endScript s c st o d).admin = s.admin := by
  obtain ⟨x, hx⟩ := endScript_setChan s c st o d
  obtain ⟨_, _, _, e⟩ := (leaveLists_listWork (withdraw (releaseLock s c) c) c).frame
  rw [hx, setChan_admin, e]
  unfold releaseLock
  split <;> rfl

theorem isolateChan_admin (s : State) (c : ChanId) : (isolateChan s c).admin = s.admin := by
  rcases isolateChan_cases s c with h | h | ⟨o, d, h⟩
  · rw [h]
  · rw [h]
    rfl
  · rw [h, endScript_admin]
    rfl

theorem isolateChan_own {s : State} (c : ChanId) (ht : s.own.lockTimer = none) : (isolateChan s c).own = s.own := by
  rcases isolateChan_cases s c with h | h | ⟨o, d, h⟩
  · rw [h]
  · rw [h]
    rfl
  · rw [h, endScript_own, releaseLock_eq]
    split
    · rw [← ht]
      rfl
    · rfl

theorem isolateChan_gone (s : State) (c : ChanId) : (isolateChan s c).presentedOf c = none := by
  by_contra hno
  by_cases hp : s.presentedOf c = none
  · exact (isolateChan_fewer s c).presented c hno hp
  · rw [isolateChan_eq, if_neg hp] at hno
    exact (failAccess_fewer (s.setPresented c none) c .portIsolated).presented c hno (presentedOf_setPresented_self s c none)

theorem isolateChans_kept (l : List ChanId) {s : State} (ht : s.own.lockTimer = none) :
    (l.foldl isolateChan s).own = s.own ∧ (l.foldl isolateChan s).admin = s.admin := by
  induction l generalizing s with
  | nil => exact ⟨rfl, rfl⟩
  | cons c l ih =>
    have hown := isolateChan_own c ht
    obtain ⟨h1, h2⟩ := ih (s := isolateChan s c) (by rw [hown, ht])
    exact ⟨h1.trans hown, h2.trans (isolateChan_admin s c)⟩

theorem isolateChans_gone (l : List ChanId) (s : State) {c : ChanId} (hc : c ∈ l) : (l.foldl isolateChan s).presentedOf c = none := by
  induction l generalizing s with
  | nil => cases hc
  | cons d l ih =>
    rcases List.mem_cons.mp hc with rfl | hc
    · by_contra hno
      exact (Fewer.foldl _ isolateChan_fewer l (isolateChan s c)).presented c hno (isolateChan_gone s c)
    · exact ih (isolateChan s d) hc

theorem isolateChans_self (l : List ChanId) {s : State} (h : ∀ c, s.presentedOf c = none) : l.foldl isolateChan s = s := by
  induction l with
  | nil => rfl
  | cons c l ih =>
    rw [List.foldl_cons, isolateChan_eq, if_pos (h c)]
    exact ih

/-- The Ownership Controller as its mode is left. -/
def leftOwn (o : Ownership) : Ownership :=
  { o with mode := .isolated, state := .isolated, turnTimer := none, leaseTimer := none, lockTimer := none, holdTimer := none,
           holdPassed := false }

section
variable (s : State)

theorem leaveMode_def : leaveMode s = allChans.foldl isolateChan { s with own := leftOwn s.own } := rfl

theorem leaveMode_eq : leaveMode s = [(0 : ChanId), 1, 2, 3].foldl
    (fun t c => if t.presentedOf c = none then t else failAccess (t.setPresented c none) c .portIsolated)
    { s with own := leftOwn s.own } := by
  have hfun : isolateChan = fun t c => if t.presentedOf c = none then t else failAccess (t.setPresented c none) c .portIsolated :=
    funext fun t => funext fun c => isolateChan_eq t c
  rw [leaveMode_def, hfun]
  rfl

theorem leaveMode_own : (leaveMode s).own = leftOwn s.own := (isolateChans_kept allChans (s := { s with own := leftOwn s.own }) rfl).1

theorem leaveMode_admin : (leaveMode s).admin = s.admin := (isolateChans_kept allChans (s := { s with own := leftOwn s.own }) rfl).2

theorem leaveMode_gone (c : ChanId) : (leaveMode s).presentedOf c = none := isolateChans_gone allChans _ (mem_allChans c)

end

/-! ## The change of mode (R125) -/

/-- A change of mode takes its parameters. -/
def paramsTaken (s : State) (p : PortParams) : State :=
  { s with own := { s.own with params := p, cmd := none, changeTimer := none, passage := none } }

/-- The port between two modes (R125). -/
def passing (s : State) (m : PortMode) (p : PortParams) : State :=
  { leaveMode (paramsTaken s p) with own := { leftOwn (paramsTaken s p).own with
      passage := some m, answers := true, turnTimer := if p.turnaround = 0 then none else some p.turnaround } }

theorem passing_own (s : State) (m : PortMode) (p : PortParams) (o : Ownership) :
    { passing s m p with own := o } = { leaveMode (paramsTaken s p) with own := o } := by
  unfold passing
  generalize leaveMode (paramsTaken s p) = t
  rfl

section
variable {s : State} {m : PortMode} {p : PortParams}

theorem changeMode_entered (h : s.own.mode = .isolated) :
    changeMode s m p = adminDone { s with own := enteredOwn (paramsTaken s p) m } .portMode .ok 0 := by
  have hmode := enterMode_eq (paramsTaken s p) m
  unfold changeMode
  dsimp only
  rw [h]
  exact congrArg (fun t => adminDone t .portMode .ok 0) hmode

theorem changeMode_left (h : s.own.mode ≠ .isolated) (hm : m = .isolated) :
    changeMode s m p = adminDone (leaveMode (paramsTaken s p)) .portMode .ok 0 := by
  subst hm
  unfold changeMode
  dsimp only
  split
  · rename_i h'
    exact absurd h' h
  · rfl

theorem changeMode_passes (h : s.own.mode ≠ .isolated) (hm : m ≠ .isolated) : changeMode s m p =
    if p.turnaround = 0 then endPassage (passing s m p) m else passing s m p := by
  have hpass : passing s m p = { leaveMode (paramsTaken s p) with own := { (leaveMode (paramsTaken s p)).own with
      passage := some m, answers := true, turnTimer := startTimer p.turnaround } } := by
    rw [leaveMode_own]
    rfl
  rw [hpass]
  unfold changeMode
  dsimp only
  split
  · rename_i h'
    exact absurd h' h
  · cases m with
    | isolated => exact absurd rfl hm
    | master => rfl
    | guest => rfl

/-- A passage at turnaround 0 ends at once (log entry 12). -/
theorem changeMode_through (h : s.own.mode ≠ .isolated) (hm : m ≠ .isolated) (ht : p.turnaround = 0) {id : BitVec 16}
    (hw : s.admin.progress = .waiting id .portMode) : changeMode s m p = adminAnswer
      { leaveMode (paramsTaken s p) with own := { enteredOwn (passing s m p) m with answers := false } } id .ok 0 := by
  have hanswers : (enteredOwn (passing s m p) m).answers = true := enteredOwn_answers ..
  have hadmin : (passing s m p).admin = s.admin := leaveMode_admin (paramsTaken s p)
  rw [changeMode_passes h hm, if_pos ht, endPassage_eq, answeredIf_waiting (id := id) hanswers (by rw [hadmin, hw])]
  rw [← passing_own]

end

end Sys2Proof.Machine
end

section
/-! PROOF. The statement of SET_PORT_MODE to another mode (R75, R110, R116, R124 to R126). -/

namespace Sys2Proof.Machine

open Sys2Proof.Safety

/-! ## The command by the state of the port (R124) -/

theorem leavesAtOnce_iff (s : State) : leavesAtOnce s = true ↔
    s.own.mode = .isolated ∨ s.own.mode = .guest ∧ (s.own.state = .released ∨ s.own.state = .requesting) := by
  simp [leavesAtOnce]

theorem setPortMode_other {rec : Record32} {s : State} {m : PortMode} (id : BitVec 16) (hr : portRangesOk rec = true)
    (hm : AdminRecord.param rec 4 1 = m.code) (hne : m ≠ s.own.mode) : setPortMode rec s id =
    if leavesAtOnce (adminWait s id .portMode) then settle (changeMode (adminWait s id .portMode) m (paramsOf rec))
    else waitPort (adminWait s id .portMode) (.setMode m (paramsOf rec)) (AdminRecord.param rec 20 4) := by
  unfold setPortMode
  rw [hm, portModeOf_code]
  exact (if_neg (by simp [hr])).trans (if_neg hne)

/-! ## The end of a change at a port that is closed -/

/-- A change of the port that leaves it closed is answered, and nothing follows. -/
theorem settle_changed {s : State} {rec : Record32} (hq : Quiescent s) (hn : NothingWaits s) (o : Ownership)
    (hb : o.breakDue = s.own.breakDue) (hp : o.preemptDue = s.own.preemptDue) (hst : o.state ≠ .holding) :
    settle (adminAnswer { (headPast s).setProgressA (.waiting (AdminRecord.id rec) .portMode) with own := o }
      (AdminRecord.id rec) .ok 0) = answered { s with own := o } rec .ok 0 := by
  obtain ⟨h1, h2, h3⟩ := hn
  have hstate : { (headPast s).setProgressA (.waiting (AdminRecord.id rec) .portMode) with own := o } =
      (headPast { s with own := o }).setProgressA (.waiting (AdminRecord.id rec) .portMode) := rfl
  have hans : adminAnswer (headPast { s with own := o }) (AdminRecord.id rec) .ok 0 = answered { s with own := o } rec .ok 0 := rfl
  rw [hstate, adminAnswer_setProgressA, hans]
  obtain ⟨p, e, -⟩ := adminAnswer_eq (headPast { s with own := o }) (AdminRecord.id rec) .ok 0
  rw [answered, e]
  exact settle_closed (s := (headPast { s with own := o }).setProgressA p) hq ⟨hb.trans h1, hp.trans h2, h3⟩
    (portOpen_false (.inl hst))

/-! ## The change of mode, its command waiting (R125) -/

section
variable {s : State} {m : PortMode} {p : PortParams} {id : BitVec 16} (hw : s.admin.progress = .waiting id .portMode)
include hw

theorem changeMode_fromIsolated (h : s.own.mode = .isolated) :
    changeMode s m p = adminAnswer { s with own := enteredOwn (paramsTaken s p) m } id .ok 0 := by
  rw [changeMode_entered h]
  exact adminDone_waiting _ _ hw

theorem changeMode_toIsolated (h : s.own.mode ≠ .isolated) (hm : m = .isolated) :
    changeMode s m p = adminAnswer (leaveMode (paramsTaken s p)) id .ok 0 := by
  rw [changeMode_left h hm]
  exact adminDone_waiting _ _ ((congrArg Admin.progress (leaveMode_admin (paramsTaken s p))).trans hw)

end

theorem enteredOwn_passing_master (s : State) (p : PortParams) (ht : p.turnaround = 0) :
    { enteredOwn (passing s .master p) .master with answers := false } =
      { (if s.own.req then
          { leftOwn (paramsTaken s p).own with
            mode := .master, state := .granted, leaseTimer := if p.leaseLimit = 0 then none else some p.leaseLimit }
        else { leftOwn (paramsTaken s p).own with mode := .master, state := .holding }) with
        passage := none, turnTimer := none, answers := false } := by
  by_cases hreq : s.own.req = true
  · have hreq' : (passing s .master p).own.req = true := hreq
    rw [enteredOwn, if_pos hreq', if_pos hreq]
    rfl
  · have hreq' : ¬ (passing s .master p).own.req = true := hreq
    have ht' : (passing s .master p).own.params.turnaround = 0 := ht
    rw [enteredOwn, if_neg hreq', if_pos ht', if_neg hreq]
    rfl

theorem enteredOwn_passing_guest (s : State) (p : PortParams) :
    { enteredOwn (passing s .guest p) .guest with answers := false } =
      { leftOwn (paramsTaken s p).own with
        mode := .guest, state := .released, passage := none, turnTimer := none, answers := false } := by
  have hnone : ∀ c, (passing s .guest p).presentedOf c = none := leaveMode_gone (paramsTaken s p)
  rw [enteredOwn, if_pos (.inr hnone)]
  rfl

/-- Settles O34, by the two modes, the turnaround, and whether the port is left at once. -/
theorem setPortModeChanges : Obligations.SetPortModeChanges := by
  refine ⟨fun s m p id hw => ?_, fun s rec ht h1 h2 h3 h4 h5 m hm hne => ?_⟩
  · intro turn lease own gone through
    have hgone : leaveMode (paramsTaken s p) = gone := leaveMode_eq (paramsTaken s p)
    have hown : gone.own = leftOwn (paramsTaken s p).own := by rw [← hgone, leaveMode_own]
    refine ⟨fun h hm => ?_, fun h hm => ?_, fun h => ⟨fun hm => ?_, fun hm ht => ?_, fun hm ht => ?_, fun hm ht => ?_⟩⟩
    · rw [changeMode_fromIsolated hw h, hm]
      rfl
    · rw [changeMode_fromIsolated hw h, hm]
      rfl
    · rw [changeMode_toIsolated hw h hm, hgone]
    · rw [changeMode_passes h hm, if_neg ht, passing, hgone, hown, if_neg ht]
    · have hmi : m ≠ .isolated := by rw [hm]; simp
      subst hm
      rw [changeMode_through h hmi ht hw, enteredOwn_passing_master s p ht, hgone, ← hown]
    · have hmi : m ≠ .isolated := by rw [hm]; simp
      subst hm
      rw [changeMode_through h hmi ht hw, enteredOwn_passing_guest s p, hgone, ← hown]
  · intro lease limit params taken waits own free
    have hranges : portRangesOk rec = true := (portRangesOk_iff rec).mpr ⟨h1, h2, h3, h4, h5⟩
    have hexec : exec (.setPortMode rec) s = .next (if leavesAtOnce taken then settle (changeMode taken m params) else settle waits) :=
      (exec_setPortMode_taken ht).trans (congrArg Host.Outcome.next (setPortMode_other (s := headPast s) (AdminRecord.id rec) hranges hm hne))
    have hfree : leavesAtOnce taken = true ↔ free := leavesAtOnce_iff taken
    have acts (h : free) : exec (.setPortMode rec) s = .next (settle (changeMode taken m params)) := by
      rw [hexec, if_pos (hfree.mpr h)]
    have stays (h : ¬ free) : exec (.setPortMode rec) s = .next (settle waits) := by
      rw [hexec, if_neg (mt hfree.mp h)]
    refine ⟨acts, stays, fun hq hn => ⟨fun hf hy hreq => ?_, fun hf hc => ?_, fun h hm hturn => ?_, fun h hm hnone => ?_,
      fun h hst hm hnone => ?_⟩⟩
    · rw [stays hf, settle_serve (s := waits) hq hn, serve_changeMode (s := waits) hy hreq rfl]
    · rw [stays hf, settle_closed (s := waits) hq hn (portOpen_false hc)]
    · let entered : Ownership :=
        if s.own.req then
          { own with mode := .master, state := .granted, leaseTimer := if lease = 0 then none else some lease }
        else { own with mode := .master, state := .settling, turnTimer := some (AdminRecord.param rec 5 1) }
      have hown : enteredOwn (paramsTaken taken params) m = entered := by
        subst hm
        by_cases hreq : s.own.req = true
        · exact (if_pos hreq).trans (if_pos hreq).symm
        · have hno : ¬ AdminRecord.param rec 5 1 = 0 := Nat.ne_of_gt (hturn.resolve_left hreq)
          exact ((if_neg hreq).trans (if_neg hno)).trans (if_neg hreq).symm
      have hkept : entered.breakDue = s.own.breakDue ∧ entered.preemptDue = s.own.preemptDue ∧ entered.state ≠ .holding := by
        by_cases hreq : s.own.req = true <;> simp [entered, hreq, own]
      obtain ⟨hb, hp, hst⟩ := hkept
      rw [acts (.inl h), changeMode_fromIsolated (s := taken) (id := AdminRecord.id rec) rfl h, hown]
      exact congrArg Host.Outcome.next (settle_changed hq hn entered hb hp hst)
    · have hown : enteredOwn (paramsTaken taken params) m = { own with mode := .guest, state := .released } := by
        subst hm
        rw [enteredOwn, if_pos (.inr hnone)]
        rfl
      rw [acts (.inl h), changeMode_fromIsolated (s := taken) (id := AdminRecord.id rec) rfl h, hown]
      exact congrArg Host.Outcome.next (settle_changed hq hn _ rfl rfl (by simp))
    · have hleave : leaveMode (paramsTaken taken params) = { taken with own := leftOwn (paramsTaken taken params).own } :=
        isolateChans_self allChans (s := { taken with own := leftOwn (paramsTaken taken params).own }) hnone
      rw [acts (.inr ⟨h, .inl hst⟩),
        changeMode_toIsolated (s := taken) (id := AdminRecord.id rec) rfl (show s.own.mode ≠ .isolated by rw [h]; simp) hm, hleave]
      exact congrArg Host.Outcome.next (settle_changed hq hn (leftOwn (paramsTaken taken params).own) rfl rfl (by simp [leftOwn]))

end Sys2Proof.Machine
end

section
/-! PROOF. Bridge reset, link hot reset, their completion, and power-on (R2, R131 to R133, R206 to R210). -/

namespace Sys2Proof.Machine

open Sys2Proof.Safety

/-! ## The wait reason in a bridge reset (R2) -/

section
variable {s : State} {c : ChanId}

theorem accessOf_true {f : InFlight} (h : s.arb.inflight = some f) (hc : f.chan = c) : s.accessOf c = true := by
  unfold State.accessOf
  rw [h]
  exact beq_iff_eq.mpr hc

theorem accessOf_false (h : ∀ f, s.arb.inflight = some f → f.chan ≠ c) : s.accessOf c = false := by
  unfold State.accessOf
  split
  · rename_i f hf
    exact beq_eq_false_iff_ne.mpr (h f hf)
  · rfl

theorem resetWait_still (h : ¬ ((s.chan c).st = .running ∨ (s.chan c).st = .pausing ∨ (s.chan c).st = .aborting)) :
    resetWait s c = (s.chan c).wait := by
  unfold resetWait
  dsimp only
  cases hst : (s.chan c).st <;> simp [hst] at h ⊢

theorem resetWait_stopping (h : (s.chan c).st = .pausing ∨ (s.chan c).st = .aborting) : resetWait s c = stopWait s c := by
  unfold resetWait
  dsimp only
  rcases h with h | h <;> rw [h]

theorem resetWait_access (h : (s.chan c).st = .running ∨ (s.chan c).st = .pausing ∨ (s.chan c).st = .aborting)
    (ha : s.accessOf c = true) : resetWait s c = .access := by
  rcases h with h | h
  · unfold resetWait
    dsimp only
    rw [h]
    exact if_pos ha
  · rw [resetWait_stopping h, stopWait_access ha]

section
variable (ha : s.accessOf c = false)
include ha

theorem resetWait_data (h : (s.chan c).st = .running ∨ (s.chan c).st = .pausing ∨ (s.chan c).st = .aborting) {d : Data}
    (hd : (s.chan c).data = some d) : resetWait s c = d.reason := by
  rcases h with h | h
  · unfold resetWait
    dsimp only
    rw [h]
    dsimp only
    rw [if_neg (by simp [ha]), hd]
  · rw [resetWait_stopping h, stopWait_data ha hd]

variable (hd : (s.chan c).data = none)
include hd

theorem resetWait_running (h : (s.chan c).st = .running) :
    resetWait s c = if fetchWaits (s.chan c) then .fetch else .none := by
  unfold resetWait
  dsimp only
  rw [h]
  dsimp only
  rw [if_neg (by simp [ha]), hd]

end

theorem fetchWaits_iff (ch : Channel) : fetchWaits ch = true ↔ ch.fetch ≠ none ∧
    (∀ sc, ch.script = some sc → sc.window = []) ∧ ∀ sc, ch.script = some sc → sc.current = none := by
  have hcur : (match ch.script with
      | some sc => sc.current.isNone
      | none => true) = true ↔ ∀ sc, ch.script = some sc → sc.current = none := by
    cases ch.script <;> simp
  rw [fetchWaits, Bool.and_eq_true, Bool.and_eq_true, Option.isSome_iff_ne_none, windowEmpty_iff, and_assoc]
  exact and_congr_right fun _ => and_congr_right fun _ => hcur

/-- A channel that goes on names a fetch it waits for, and nothing otherwise. -/
theorem resetWait_fetches (h : (s.chan c).st = .running ∨ (s.chan c).st = .pausing ∨ (s.chan c).st = .aborting)
    (ha : s.accessOf c = false) (hd : (s.chan c).data = none) :
    let fetches := (s.chan c).fetch ≠ none ∧ (∀ sc, (s.chan c).script = some sc → sc.window = []) ∧
      ((s.chan c).st = .running → ∀ sc, (s.chan c).script = some sc → sc.current = none)
    (fetches → resetWait s c = .fetch) ∧ (¬ fetches → resetWait s c = .none) := by
  intro fetches
  rcases h with h | h
  · have hiff : fetchWaits (s.chan c) = true ↔ fetches :=
      (fetchWaits_iff _).trans (and_congr_right fun _ => and_congr_right fun _ => ⟨fun hc _ => hc, fun hc => hc h⟩)
    rw [resetWait_running ha hd h]
    exact ⟨fun hf => if_pos (hiff.mpr hf), fun hf => if_neg (mt hiff.mp hf)⟩
  · have hrun : (s.chan c).st ≠ .running := by rcases h with h | h <;> rw [h] <;> simp
    rw [resetWait_stopping h]
    refine ⟨fun hf => ?_, fun hf => ?_⟩
    · obtain ⟨h1, h2, -⟩ := hf
      exact stopWait_fetch ha hd h1 h2
    · refine stopWait_nothing ha hd ?_
      by_contra hno
      rw [not_or] at hno
      obtain ⟨h1, h2⟩ := hno
      refine hf ⟨h1, fun sc hs => ?_, fun hr => absurd hr hrun⟩
      by_contra hw
      exact h2 ⟨sc, hs, hw⟩

end

/-! ## The port once no access is in flight (R133, R207) -/

theorem resetPort_eq (s : State) : resetPort s = { s with
    arb := { s.arb with lock := none },
    own := if s.own.mode = .guest then
        { s.own with lockTimer := none, breakDue := false, preemptDue := false, state := .released, holdTimer := none,
                     turnTimer := none, holdPassed := false }
      else { s.own with lockTimer := none, breakDue := false, preemptDue := false } } := by
  unfold resetPort clearLock
  dsimp only
  split <;> rfl

theorem afterAccessInReset_open {s : State} (h : s.regionWait = none) : afterAccessInReset s = serve (resetPort s) := by
  rw [afterAccessInReset, waitingRegion_self h]

theorem applyRegion_silent {s : State} (ch : RegionChange) (h : ∀ id, s.admin.progress ≠ .waiting id .region) :
    applyRegion s ch = { s with
      regions := s.regions.set ch.index ch.entry, regionWait := none,
      shadow := s.shadow.filter (changeKeeps (s.regions.set ch.index ch.entry) (changedTable s.regions ch).2) } := by
  unfold applyRegion shadowPurge
  dsimp only
  rw [changedTable_table]
  exact adminDone_other _ _ h

theorem waitingRegion_kept (s : State) : (waitingRegion s).arb = s.arb ∧ (waitingRegion s).own = s.own := by
  unfold waitingRegion
  split
  · rename_i ch _
    obtain ⟨a, -, e⟩ := applyRegion_eq s ch
    rw [e]
    exact ⟨rfl, rfl⟩
  · exact ⟨rfl, rfl⟩

/-- With nothing presented and no command waiting, the service of the port in a reset issues nothing. -/
theorem serve_resetPort_inflight {s : State} (hf : s.arb.inflight = none) (hp : ∀ c, s.presentedOf c = none)
    (hc : s.own.cmd = none) : (serve (resetPort s)).arb.inflight = none := by
  have hu := resetPort_eq s
  have hflight : (resetPort s).arb.inflight = none := by rw [hu]; exact hf
  cases ho : portOpen (resetPort s) with
  | false => rw [serve_of_none (serveOne_closed ho), hflight]
  | true =>
    obtain ⟨⟨hst, -⟩, hbrst⟩ : ((resetPort s).own.state = .holding ∧ (resetPort s).arb.inflight = none) ∧
        (resetPort s).own.brst = false := by
      simpa [portOpen] using ho
    have hm : s.own.mode ≠ .guest := fun hm => by
      rw [hu] at hst
      dsimp only at hst
      rw [if_pos hm] at hst
      cases hst
    have hown : (resetPort s).own = { s.own with lockTimer := none, breakDue := false, preemptDue := false } := by
      rw [hu]
      exact if_neg hm
    have hy : YieldPoint (resetPort s) := ⟨hst, hflight, hbrst, by rw [hu]⟩
    by_cases hreq : (resetPort s).own.mode = .master ∧ (resetPort s).own.req = true
    · obtain ⟨h1, h2⟩ := hreq
      rw [serve_grant hy h1 h2]
      exact hflight
    · have hnone : ∀ c, (resetPort s).presentedOf c = none := by rw [hu]; exact hp
      have hm' : (resetPort s).own.mode ≠ .guest := by rw [hown]; exact hm
      rw [serve_rest hy hreq (by rw [hown]; exact hc) (fun hg => hm' hg.1) (nextServed_none hnone) (.inl hm'), hflight]

theorem afterAccessInReset_inflight {s : State} (hf : s.arb.inflight = none) (hp : ∀ c, s.presentedOf c = none)
    (hc : s.own.cmd = none) : (afterAccessInReset s).arb.inflight = none := by
  obtain ⟨harb, hown⟩ := waitingRegion_kept s
  exact serve_resetPort_inflight (by rw [harb, hf]) (fun c => (presentedOf_congr c harb).trans (hp c)) (by rw [hown, hc])

/-! ## The end of what is in flight, and the completion (R207, R208) -/

theorem stopped_presentedOf (s : State) (cause : ResetCause) (c : ChanId) : (stopped s cause).presentedOf c = none := by
  simp [stopped, stopAll, waitsOver, State.presentedOf]

theorem dropAdminTransfer_eq (p : AdminProgress) : dropAdminTransfer p = match p with
    | .waiting id on => .waiting id on
    | _ => .idle := by cases p <;> rfl

theorem adminTransfer_iff (p : AdminProgress) : adminTransfer p = false ↔ p = .idle ∨ ∃ id on, p = .waiting id on := by
  cases p <;> simp [adminTransfer]

theorem nothingInFlight_iff (s : State) : nothingInFlight s = true ↔ s.arb.inflight = none ∧
    (s.admin.progress = .idle ∨ ∃ id on, s.admin.progress = .waiting id on) ∧
    (∀ c, (s.chan c).data = none ∧ (s.chan c).fetch = none) ∧ s.events.write = none ∧ ∀ v, (s.vector v).messages = 0 := by
  have hchans : (allChans.all fun c => (s.chan c).data.isNone && (s.chan c).fetch.isNone) = true ↔
      ∀ c, (s.chan c).data = none ∧ (s.chan c).fetch = none := by
    simp only [List.all_eq_true, Bool.and_eq_true, Option.isNone_iff_eq_none]
    exact ⟨fun h c => h c (mem_allChans c), fun h c _ => h c⟩
  have hvectors : ((List.finRange 6).all fun v => (s.vector v).messages == 0) = true ↔ ∀ v, (s.vector v).messages = 0 := by
    simp only [List.all_eq_true, beq_iff_eq]
    exact ⟨fun h v => h v (List.mem_finRange v), fun h v _ => h v⟩
  rw [← adminTransfer_iff, ← hchans, ← hvectors]
  simp only [nothingInFlight, Bool.and_eq_true, Option.isNone_iff_eq_none, Bool.not_eq_true', and_assoc]

theorem resetting_iff (s : State) : s.resetting = true ↔ s.ready = false ∧ s.cause ≠ .powerOn := by simp [State.resetting]

theorem powerOn_attn (s : State) : (Vector.ofFn fun n : LineId => { State.reset.line n with level := (s.line n).level }) =
    Vector.ofFn fun n : LineId => { AttnLine.reset with level := (s.line n).level } := by
  simp only [line_reset]

end Sys2Proof.Machine
end

section
/-! PROOF. The statement of the resets (R2, R131 to R133, R206 to R210). -/

namespace Sys2Proof.Machine

open Sys2Proof.Safety

/-! ## A hot reset starts a bridge reset, or joins the one under way (R206, R207, R209) -/

section
variable {s : State}

theorem startReset_held (cause : ResetCause) (hf : s.arb.inflight.isSome = true) : startReset s cause = stopped s cause := by
  rw [startReset_eq, if_pos hf]

theorem startReset_free (cause : ResetCause) (hf : s.arb.inflight = none) :
    startReset s cause = afterAccessInReset (stopped s cause) := by
  rw [startReset_eq, if_neg (by simp [hf])]

theorem exec_bridgeReset_ready (b : Bool) (h : s.ready = true) : exec (.bridgeReset b) s = .next (startReset s .hostRequest) :=
  congrArg Host.Outcome.next (if_pos h)

theorem exec_linkHotReset_joins (hr : s.ready = false) (hc : s.cause ≠ .powerOn) :
    exec .linkHotReset s = .next (endTransfers { s with cause := .linkReset }) :=
  congrArg (fun t => Host.Outcome.next (endTransfers t)) (if_pos ((resetting_iff s).mpr ⟨hr, hc⟩))

theorem exec_linkHotReset_starts (h : s.ready = true ∨ s.cause = .powerOn) :
    exec .linkHotReset s = .next (endTransfers (startLinkReset s)) := by
  refine congrArg (fun t => Host.Outcome.next (endTransfers t)) (if_neg ?_)
  rw [resetting_iff]
  rintro ⟨hr, hc⟩
  rcases h with h | h
  · cases h.symm.trans hr
  · exact hc h

theorem startLinkReset_ready (h : s.ready = true) : startLinkReset s = startReset s .linkReset := by
  refine if_neg fun hb => ?_
  obtain ⟨hr, -⟩ := (initialising_iff s).mp hb.1
  cases h.symm.trans hr

/-- A hot reset in the initialisation observes a BRST that stands (log entry 21). -/
theorem startLinkReset_initialising (hi : s.initialising = true) (hf : s.arb.inflight = none) : startLinkReset s =
    if s.own.brst then boardsReset (afterAccessInReset (stopped s .linkReset)) 1 else afterAccessInReset (stopped s .linkReset) := by
  have hnone : (afterAccessInReset (stopped s .linkReset)).arb.inflight = none :=
    afterAccessInReset_inflight (s := stopped s .linkReset) hf (stopped_presentedOf s .linkReset) rfl
  unfold startLinkReset
  rw [startReset_free .linkReset hf, observeReset_none hnone]
  exact if_congr (and_iff_right hi) rfl rfl

end

/-- Settles O46, by the reset, by whether an access is in flight, and by what waits. -/
theorem resetsAct : Obligations.ResetsAct := by
  intro s waits stop unlocked ended observed
  have hstop (cause : ResetCause) : stopped s cause = stop cause := by
    have habandon (p : AdminProgress) : abandonWait p = match p with
        | .waiting _ _ => .idle
        | p => p := by cases p <;> rfl
    unfold stopped stopAll
    rw [habandon]
    rfl
  have hended (t : State) : endTransfers t = ended t := by
    unfold endTransfers
    rw [dropAdminTransfer_eq]
    rfl
  have hunlocked (t : State) : resetPort t = unlocked t := resetPort_eq t
  refine ⟨fun c => ⟨rfl, ?_⟩, fun h => ?_, fun i new hw h => ?_, fun hready hf => ⟨fun b => ?_, ?_⟩, fun hready hf => ⟨fun b => ?_, ?_⟩,
    fun hready hcause => ⟨?_, ?_⟩, ?_, fun hready hcause hf => ?_⟩
  · intro ch goes fetches
    refine ⟨resetWait_still, fun hg ⟨f, hf, hc⟩ => resetWait_access hg (accessOf_true hf hc), fun hg hn => ⟨fun d hd => ?_, fun hd => ?_⟩⟩
    · rw [resetWait_data (accessOf_false hn) hg hd]
      cases d <;> rfl
    · exact resetWait_fetches hg (accessOf_false hn) hd
  · rw [afterAccessInReset_open h, hunlocked]
  · intro table keep
    obtain ⟨ch, hch, hi, hnew⟩ : ∃ ch, s.regionWait = some ch ∧ ch.index = i ∧ ch.entry = new := by
      rcases h with ⟨h, rfl⟩ | ⟨g, h, rfl⟩
      · exact ⟨_, h, rfl, rfl⟩
      · exact ⟨_, h, rfl, rfl⟩
    subst hi
    subst hnew
    have hwaiting : waitingRegion s = applyRegion s ch := by
      unfold waitingRegion
      rw [hch]
    rw [afterAccessInReset, hwaiting, applyRegion_silent ch hw, changeKeeps_eq, hunlocked] <;> rfl
  · rw [exec_bridgeReset_ready b hready, startReset_held _ hf, hstop]
  · rw [exec_linkHotReset_starts (.inl hready), startLinkReset_ready hready, startReset_held _ hf, hstop, hended]
  · rw [exec_bridgeReset_ready b hready, startReset_free _ hf, hstop]
  · rw [exec_linkHotReset_starts (.inl hready), startLinkReset_ready hready, startReset_free _ hf, hstop, hended]
  · rw [exec_linkHotReset_joins hready hcause, hended]
  · intro still
    have hiff : (s.resetting && nothingInFlight s) = true ↔ still := by
      rw [Bool.and_eq_true, nothingInFlight_iff]
      exact and_iff_right ((resetting_iff s).mpr ⟨hready, hcause⟩)
    exact ⟨fun h => congrArg Host.Outcome.next (if_pos (hiff.mpr h)), fun h => congrArg Host.Outcome.next (if_neg (mt hiff.mp h))⟩
  · have hattn := powerOn_attn s
    show Host.Outcome.next (keepLevels s State.reset) = _
    unfold keepLevels
    rw [hattn]
    rfl
  · intro up reset
    have hi : s.initialising = true := (initialising_iff s).mpr ⟨hready, hcause⟩
    refine ⟨?_, ?_⟩
    · have hend : exec .powerOnInitialisationEnd s = .next (if up.own.brst then observeReset up else up) :=
        congrArg Host.Outcome.next (if_pos hi)
      rw [hend, observeReset_none (s := up) hf]
      rfl
    · rw [exec_linkHotReset_starts (.inr hcause), startLinkReset_initialising hi hf, hended, hstop]
      rfl

end Sys2Proof.Machine
end
